-- ==== Sys2Proof/Word.lean ====
section
/-!
DEFINITION. The word and byte types of the OVX-1051 model, and the plainest arithmetic on them:
two's complement reading and writing, clamping, and rounding to nearest with ties away from zero (R7, R186).
-/

namespace Sys2Proof

/-- A register word: every register is 32 bits wide (R392). -/
abbrev Word := BitVec 32

/-- A byte of an addressed memory. -/
abbrev Byte := BitVec 8

/-- The value of a number read as an `n`-bit two's complement field. -/
def toSigned (n : Nat) (v : Nat) : Int :=
  let w := v % 2 ^ n
  if 2 * w < 2 ^ n then (w : Int) else (w : Int) - (2 ^ n : Nat)

/-- The `n`-bit two's complement field that holds an integer, wrapping. -/
def ofSigned (n : Nat) (v : Int) : Nat := (v % ((2 ^ n : Nat) : Int)).toNat

/-- The nearest value of a closed range. -/
def clampInt (lo hi v : Int) : Int := if v < lo then lo else if hi < v then hi else v

/-- The nearest value of a closed range of naturals. -/
def clampNat (lo hi v : Nat) : Nat := if v < lo then lo else if hi < v then hi else v

/-- `a / b` to the nearest integer, ties away from zero (R186, R192, R228, R302); `b` is positive. -/
def roundDiv (a : Int) (b : Nat) : Int :=
  if 0 ≤ a then (2 * a + b) / (2 * (b : Int)) else -((2 * (-a) + b) / (2 * (b : Int)))

/-- The limits of Q1.23, the audio sample format (R7). -/
def satQ23 (v : Int) : Int := clampInt (-8388608) 8388607 v

/-- The bytes of a little-endian value (R3), the least significant first. -/
def leBytes : Nat → Nat → List Byte
  | 0, _ => []
  | n + 1, v => BitVec.ofNat 8 v :: leBytes n (v / 256)

/-- The bytes of a big-endian value (R3), the most significant first. -/
def beBytes (n v : Nat) : List Byte := (leBytes n v).reverse

/-- The value of little-endian bytes. -/
def ofLe : List Byte → Nat
  | [] => 0
  | b :: bs => b.toNat + 256 * ofLe bs

/-- The value of big-endian bytes. -/
def ofBe (bs : List Byte) : Nat := ofLe bs.reverse

end Sys2Proof
end

