-- ==== Sys2Proof/Syntax.lean ====
section
/-!
DEFINITION. The commands of the OVX-1051: one constructor of `Instr` for each row of spec/opcode_table.json,
with the operands its event brings from outside the device (a port, an index, a received frame, a measured value,
the session slot of a host access), and the types of those operands.
The table gives its rows no operands and no bits, so the operands are the model's own (log entry 1).
-/

namespace Sys2Proof

/-! ## Host accesses -/

/-- The interface that carries a host access (R383, R425). -/
inductive Iface where
  | pcie
  | spi
  | tunnel
  deriving DecidableEq, Repr

/-- Who makes a host access: the interface and the session slot it names (R383); a tunnelled access carries
the role and the session handle of the head's host access (R334). -/
structure Access where
  iface : Iface
  slot : Nat
  carriedRole : Nat := 0
  carriedHandle : Nat := 0
  deriving DecidableEq, Repr

/-! ## PTP messages (R49, R64) -/

/-- The data set an Announce message carries (R50, R64). -/
structure AnnounceData where
  prio1 : Nat
  clockClass : Nat
  accuracy : Nat
  variance : Nat
  prio2 : Nat
  gmId : Nat
  steps : Nat
  timeBase : Nat
  pathTrace : List Nat
  deriving DecidableEq, Repr

/-- A received PTP message after parsing. Times are nanoseconds, corrections signed ns in 48.16. -/
structure PtpMsg where
  version : Nat
  minorVersion : Nat
  msgType : Nat
  management : Bool
  lengthBad : Bool
  domain : Nat
  sdoId : Nat
  srcId : Nat
  srcPort : Nat
  seq : Nat
  twoStep : Bool
  correction : Int
  time : Nat
  reqId : Nat
  reqPort : Nat
  ann : Option AnnounceData
  deriving DecidableEq, Repr

/-! ## Streams (R87 to R92) -/

/-- One bit clock of a serial port (R141): WS and SD at its rising edge, and at the falling edge that follows it. -/
structure SapClock where
  ws : Bool
  sd : Bool
  wsFall : Bool
  sdFall : Bool
  deriving DecidableEq, Repr

/-- The clocks of a frame that a serial port sends: local time in ns of the WS edge that starts it, and the bit clocks of its halves. -/
structure SapFrameClocks where
  wsEdge : Nat
  leftBits : Nat
  rightBits : Nat
  deriving DecidableEq, Repr

/-- A rising edge of reference `ref`: for code 3 of the word select of serial port `port`. -/
structure RefEdge where
  ref : Nat
  port : Nat
  deriving DecidableEq, Repr

/-- A read of a queue. `meets`: the next append to the queue falls in the same fabric cycle (R164). -/
structure QueueRead where
  queue : Nat
  meets : Bool
  deriving DecidableEq, Repr

/-- A received stream packet, AAF or RTP, with its samples as wire integers, one list per sample frame. -/
structure StreamPkt where
  aaf : Bool
  vlan : Option Nat
  dstIp : Nat
  srcIp : Nat
  udp : Nat
  version : Nat
  extras : Bool
  pt : Nat
  ssrc : Nat
  subtype : Nat
  streamId : Nat
  format : Nat
  nsr : Nat
  bitDepth : Nat
  channels : Nat
  seq : Nat
  time : Nat
  payloadLen : Nat
  frames : List (List Int)
  deriving DecidableEq, Repr

/-! ## The Object Scene Protocol (R109 to R112) -/

/-- Where an OSP datagram came from: network port, source address, source UDP port, and the address and UDP port it was sent to. -/
structure UdpFrom where
  port : Nat
  addr : Nat
  udp : Nat
  dst : Nat
  dstUdp : Nat
  deriving DecidableEq, Repr

/-- An object record of R112, as it stands in the message. -/
structure ObjRecord where
  obj : Nat
  flags : Nat
  apply : Nat
  pos0 : Nat
  pos1 : Nat
  pos2 : Nat
  gain : Nat
  size : Nat
  spread : Nat
  glide : Nat
  deriving DecidableEq, Repr

/-- A controller's HELLO (R111): SEQ of its header, and its body. -/
structure HelloBody where
  seq : Nat
  stage : Nat
  role : Nat
  kaMs : Nat
  seq0 : Nat
  cnonce : List Byte
  dnonce : List Byte
  mac : List Byte
  deriving DecidableEq, Repr

/-- A message body after the header (R111). -/
inductive OspBody where
  | none
  | update (count : Nat) (records : List ObjRecord)
  | commit (apply : Nat)
  | bye (reason : Nat)
  deriving DecidableEq, Repr

/-- An OSP message of a controller: the header of R110 and its body; `udpLen` is the UDP payload length. -/
structure OspMsg where
  magic : Nat
  version : Nat
  type : Nat
  handle : Nat
  seq : Nat
  length : Nat
  batch : Nat
  udpLen : Nat
  body : OspBody
  deriving DecidableEq, Repr

/-! ## Ethernet frames (R69 to R76) -/

/-- An IEEE 802.1Q tag (R69). -/
structure VlanTag where
  tpid : Nat
  pcp : Nat
  vid : Nat
  deriving DecidableEq, Repr

/-- An ARP packet (R83). -/
structure ArpPkt where
  senderMac : Nat
  senderIp : Nat
  targetIp : Nat
  deriving DecidableEq, Repr

/-- What an IPv4 datagram carries, as far as the MAC's classification reads it (R76, R83). -/
inductive IpBody where
  | rtp (p : StreamPkt)
  | udp (dstPort : Nat)
  | ptp (dstPort : Nat) (m : PtpMsg)
  | icmpEcho (ident seq : Nat) (data : List Byte)
  | icmpOther
  | igmp (version : Nat)
  | other
  deriving DecidableEq, Repr

/-- What a frame carries behind its addresses and tags. -/
inductive FramePayload where
  | pause (quanta : Nat)
  | pfc (enable : Nat) (quanta : List Nat)
  | ptpL2 (m : PtpMsg)
  | avtp (p : StreamPkt)
  | arp (p : ArpPkt)
  | ipv4 (dst : Nat) (fragment badChecksum : Bool) (body : IpBody)
  | other (etherType : Nat)
  deriving DecidableEq, Repr

/-- A frame at a port's receiver: its length includes the FCS (R69); `bytes` are its octets from the destination
address on, as the wake patterns and the host queues read them. -/
structure Frame where
  dst : Nat
  src : Nat
  tags : List VlanTag
  len : Nat
  fcsGood : Bool
  codeErr : Bool
  payload : FramePayload
  bytes : List Byte
  stamp : Nat
  deriving DecidableEq, Repr

/-! ## The ring (R320) -/

/-- A side of a device on the ring. -/
inductive Side where
  | down
  | up
  deriving DecidableEq, Repr

/-- A LINES frame: the header of R320, and its 256 payload words as 512 line words. -/
structure LinesFrame where
  group : Nat
  frame : Nat
  zeroed : Bool
  zhop : Nat
  block : Nat
  crcGood : Bool
  words : List Int
  deriving DecidableEq, Repr

/-- An ENUM frame: whether it comes from this device's own hand (a head that sees its own ENUM return), how many hops it
has made, and the head's group registers. -/
structure EnumFrame where
  ownReturn : Bool
  hops : Nat
  groups : List Nat
  deriving DecidableEq, Repr

/-! ## What a pair mirrors (R350) -/

namespace Machine

/-- A linear move from `a` to `b` over `n` blocks, of which `k` have passed. -/
structure Glide where
  a : Int
  b : Int
  n : Nat := 0
  k : Nat := 0
  deriving DecidableEq, Repr

/-- The state of one object. Its position is held in the form of the last record that set it (`aed`: azimuth, elevation
and distance). All glides are in 1/65536 of the field's unit. `mute`: the gain's end is exact mute. `policy` is the
orphan policy that runs: 0 none, 1 FADE, 2 HOME. -/
structure ObjState where
  aed : Bool := false
  p0 : Glide := { a := 0, b := 0 }
  p1 : Glide := { a := 0, b := 0 }
  p2 : Glide := { a := 0, b := 0 }
  gain : Glide := { a := -402653184, b := -402653184 }
  mute : Bool := true
  size : Glide := { a := 0, b := 0 }
  spread : Glide := { a := 0, b := 0 }
  policy : Nat := 0
  deriving DecidableEq, Repr

def ObjState.init : ObjState := {}

/-- An open session; `src` is its binding and where its latest message arrived. Tokens are in units of a token over 3·10^9. `buf` holds the messages of the reorder buffer by
number (`none`: a malformed message that keeps its number); `gap` the local time since which E is missing. -/
structure OspSession where
  src : UdpFrom
  handle : Nat
  role : Nat
  kaMs : Nat
  e : Nat
  cnonce : List Byte
  dnonce : List Byte
  welcome : List Byte := []
  devSeq : Nat := 0
  buf : List (Nat × Option OspMsg) := []
  tokens : Nat
  tokens3 : Nat
  kaSeq : Option Nat := none
  gap : Option (Nat × Nat) := none
  nak3 : Nat := 0
  rx3 : Nat
  tx3 : Nat
  ackDue : Bool := false
  closing : Option Nat := none
  used : List (Nat × Nat) := []
  deriving DecidableEq, Repr

/-- A record with the sequence number of its message and its place in it. -/
structure HeldRecord where
  body : ObjRecord
  seq : Nat
  index : Nat
  deriving DecidableEq, Repr

/-- What waits in the scene store: a record, or a committed batch (`batch`: the number of its SCENE_COMMIT). Sources are
the sessions 0 to 7 and the metadata port, 9. -/
structure Held where
  src : Nat
  order : Nat
  due : Nat
  recs : List HeldRecord
  batch : Option Nat
  deriving DecidableEq, Repr

/-- An open batch: its number, the sequence number of its SCENE_BEGIN, its records, how many reached it, the code that
doomed it (0: none) and the local time of its opening. -/
structure Batch where
  ident : Nat
  seq : Nat
  recs : List HeldRecord := []
  count : Nat := 0
  doom : Nat := 0
  opened3 : Nat
  deriving DecidableEq, Repr

/-- A gain ramp in Q4.20: from `g0` to `g1` over `n` samples, of which `k` have passed. -/
structure Ramp where
  g0 : Int
  g1 : Int
  n : Nat := 0
  k : Nat := 0
  deriving DecidableEq, Repr

/-- An enabled line of the delay store: its owner, coding and place, the samples written since it restarted, and the
latest samples as they were written, the newest first. -/
structure LineState where
  kind : Nat
  owner : Nat
  float : Bool
  len : Nat
  base : Nat
  total : Nat := 0
  raw : List Int := []
  deriving DecidableEq, Repr

/-- A reader of a delay (R232, R233): the tap, a crossfade (from, to, samples passed), and a held change. -/
structure DlyReader where
  cur : Nat := 0
  xf : Option (Nat × Nat × Nat) := none
  held : Option Nat := none
  deriving DecidableEq, Repr

/-- The history of a biquad section (R189). -/
structure BqHist where
  x1 : Int := 0
  x2 : Int := 0
  y1 : Int := 0
  y2 : Int := 0
  deriving DecidableEq, Repr

/-- An input channel: its signed gain, its delay, the histories of its sections, and the settings that sections leave in
this block (`none` stands for disabled). -/
structure InpChan where
  gain : Ramp := { g0 := 0, g1 := 0 }
  dly : DlyReader := {}
  bq : List (Nat × BqHist) := []
  bqOld : List (Nat × Option (List Int)) := []
  deriving DecidableEq, Repr

def InpChan.init : InpChan := {}

/-- A filter in the coefficient store: its bank, its first cell and its taps. -/
structure Filter where
  bank : Nat
  base : Nat
  len : Nat
  deriving DecidableEq, Repr

/-- An output: trim, delay and its latest samples after the trim (newest first); the filter it uses and the one that
fades out with the samples of the crossfade (`none` passes the input unchanged); the inputs of the convolution, newest
first; the biquad sections; the taps that a core FIR leaves in this block; the limiter's reduction in 2^−32 dB. -/
structure OutChan where
  trim : Ramp := { g0 := 0, g1 := 0 }
  dly : DlyReader := {}
  raw : List Int := []
  filt : Option Filter := none
  oldFilt : Option (Option Filter × Nat) := none
  hist : List Int := []
  bq : List (Nat × BqHist) := []
  bqOld : List (Nat × Option (List Int)) := []
  firOld : Option (List Int) := none
  a : Int := 0
  deriving DecidableEq, Repr

def OutChan.init : OutChan := {}

end Machine

/-- A commit record: the block and the writes (address, value) of a validated commit (R350, R351). -/
abbrev CommitRecord := Nat × List (Nat × Nat)

/-- A mirror frame (R350, R355). From the active: committed changes of safe-loaded registers with their commit block,
changed objects, session slots with their pending records and open batches and the time they count in, receive contexts (number, expected sequence number, state), words of other mirrored registers,
the last egress samples, its image digest with persisted groups, key slots, and a power request with its block. From the standby: its
state, STALE and its holdover status. From both: the commit records announced (active) or received (standby); the check codes of the Damson paths of one block; from the active the histories it copies
for a path that lost lockstep. -/
structure MirrorFrame where
  fromActive : Bool
  partnerState : Nat
  partnerStale : Bool
  partnerHoldoverInSpec : Bool
  commits : List CommitRecord
  objects : List (Nat × Machine.ObjState)
  sessions : List (Nat × Option Machine.OspSession)
  store : List Machine.Held
  batches : List (Nat × Machine.Batch)
  up3 : Nat
  contexts : List (Nat × Nat × Nat)
  words : List (Nat × Nat)
  acked : List CommitRecord
  damsonBlock : Nat
  damson : List (Nat × Nat)
  egress : List (Nat × Int)
  digest : List Byte
  persisted : List (List (Nat × Nat))
  keys : List (Nat × List Byte)
  power : Option (Nat × Nat)
  outs : List (Nat × Machine.OutChan)
  inps : List (Nat × Machine.InpChan)
  lines : List (Nat × Machine.LineState)
  deriving DecidableEq, Repr

/-! ## Luveren operands (R293 to R308) -/

/-- A v register number. -/
abbrev VReg := Fin 16
/-- A number of a p, u or e register. -/
abbrev AReg := Fin 8
/-- An accumulator number. -/
abbrev WReg := Fin 4

/-- The second operand of an ALU instruction: a register or a 15-bit immediate (R298). -/
inductive AluB where
  | reg (r : VReg)
  | imm (i : BitVec 15)
  deriving DecidableEq, Repr

/-- A shift count: bits [4:0] of a register or an immediate 0 to 31 (R298). -/
inductive ShiftB where
  | reg (r : VReg)
  | imm (i : Fin 32)
  deriving DecidableEq, Repr

/-- The conditions of R306. -/
inductive Cond where
  | al | eq | ne | lt | ge | le | gt | vs | vc | ss | sc
  deriving DecidableEq, Repr

/-- Post-modification of a load or store operand (R296). -/
inductive PostMod where
  | none
  | byU
  | byImm (i : BitVec 12)
  deriving DecidableEq, Repr

/-- Post-modification of a multiply-accumulate operand (R294). -/
inductive MacMod where
  | none | up | down | byU
  deriving DecidableEq, Repr

/-- The first operand of a multiply-accumulate: a v register, or the S word (R293). -/
inductive MacFirst where
  | reg (r : VReg)
  | sWord
  deriving DecidableEq, Repr

/-- The second operand: a K read through a pointer, one v register (single), or v4k to v4k+3 (quad) (R293). -/
inductive MacSecond where
  | kBus (p : AReg) (m : MacMod)
  | reg (r : VReg)
  | quadRegs (k : WReg)
  deriving DecidableEq, Repr

/-- The operands of MPY, MAC and MSU (R293, R294). `sAcc` is the S access, made when the first operand is the S word
or a parallel load is named. -/
structure MacOps where
  quad : Bool
  first : MacFirst
  second : MacSecond
  acc : WReg
  sAcc : Option (AReg × MacMod)
  load : Option VReg
  deriving DecidableEq, Repr

/-- The address register files of LDIA (R303). -/
inductive AFile where
  | p | u | e
  deriving DecidableEq, Repr

/-- A register of MOVR (R304). -/
inductive MovReg where
  | v (n : VReg)
  | p (n : AReg)
  | u (n : AReg)
  | e (n : AReg)
  | fw
  deriving DecidableEq, Repr

/-- The count of REP: an immediate or a v register (R305). -/
inductive RepCount where
  | imm (n : BitVec 16)
  | reg (r : VReg)
  deriving DecidableEq, Repr

/-- What wakes the device from STANDBY or OFF (R438, R439); of the WAKE pin its level. -/
inductive WakeSource where
  | pin (level : Bool)
  | pattern
  | host
  | resetPin
  deriving DecidableEq, Repr

/-- What the clock steward and a PTP engine have reached by the time a boot starts audio (R29): the port whose time is LOCKED, local
time in ns, and the master it follows with its last Announce message. -/
structure BootLock where
  port : Nat
  now : Nat
  srcId : Nat
  srcPort : Nat
  seq : Nat
  data : AnnounceData
  deriving DecidableEq, Repr

/-- The DRAM that training finds, in MiB, or its failure (R462, R375). -/
abbrev DramFound := Option Nat

/-- What a boot finds outside: the DRAM, the place of the flash whose read fails (slot and section, 255 for the header and its table),
and what the engines have locked to by the time audio starts. -/
structure BootFound where
  dram : DramFound
  badRead : Option (Nat × Nat)
  lock : Option BootLock
  deriving DecidableEq, Repr

/-! ## The commands -/

/-- One constructor for each row of the operation table, in the table's order. Each docstring names the row and the
requirement that governs it. -/
inductive Instr where
  /-- BLOCK_TICK (R21): a block boundary; `phase` is the phase error the steward measures there of a selected reference whose
  edges it sees (codes 2 and 3), reference minus local, in ps. -/
  | blockTick (phase : Int)
  /-- REGISTER_WRITE (R394). -/
  | registerWrite (a : Access) (addr size value : Nat)
  /-- SAFE_LOAD_WRITE (R235). -/
  | safeLoadWrite (a : Access) (addr value : Nat)
  /-- MEASUREMENT_WINDOW_END (R461): `rate` in the unit of CLK_REFn_RATE. -/
  | measurementWindowEnd (n : Nat) (rate : Int)
  /-- REF_LOST (R41). -/
  | refLost (n : Nat)
  /-- REF_GLITCH (R42). -/
  | refGlitch (n : Nat)
  /-- WAIT_TO_RESTORE_END (R32). -/
  | waitToRestoreEnd (n : Nat)
  /-- LOCK (R39). -/
  | lock
  /-- HO_OOS (R46). -/
  | hoOos
  /-- CLK_BLOCK_READ (R31). -/
  | clkBlockRead (a : Access)
  /-- TIME_SNAPSHOT_READ (R59): CLK_EPOCH_NS, or PTP_TIME_NS in a port's window. -/
  | timeSnapshotRead (a : Access) (epoch : Bool) (port : Nat)
  /-- COUNTER_READ (R84). -/
  | counterRead (a : Access) (port i : Nat)
  /-- RING_TIME_HELD (R30): the head's present block number and boot epoch in ns. -/
  | ringTimeHeld (block epoch : Nat)
  /-- PTP_SYNC (R49): `t2` is the detection time of the message in ns. -/
  | ptpSync (port : Nat) (m : PtpMsg) (t2 : Nat)
  /-- FOLLOW_UP (R64). -/
  | followUp (port : Nat) (m : PtpMsg)
  /-- ANNOUNCE (R50). -/
  | announce (port : Nat) (m : PtpMsg)
  /-- DELAY_REQ (R49). -/
  | delayReq (port : Nat) (m : PtpMsg) (t4 : Nat)
  /-- DELAY_RESP (R64). -/
  | delayResp (port : Nat) (m : PtpMsg)
  /-- PDELAY_REQ (R49). -/
  | pdelayReq (port : Nat) (m : PtpMsg) (t2 t3 : Nat)
  /-- PDELAY_RESP (R64). -/
  | pdelayResp (port : Nat) (m : PtpMsg) (t4 : Nat)
  /-- PDELAY_RESP_FOLLOW_UP (R64). -/
  | pdelayRespFollowUp (port : Nat) (m : PtpMsg)
  /-- SYNC_TRANSMIT (R49): `t1` is the launch time of the Sync in ns. -/
  | syncTransmit (port t1 : Nat)
  /-- ANNOUNCE_TRANSMIT (R52). -/
  | announceTransmit (port : Nat)
  /-- DELAY_REQ_TRANSMIT (R49): `t` is the launch time in ns. -/
  | delayReqTransmit (port t : Nat)
  /-- FU_MISSING (R64). -/
  | fuMissing (port : Nat)
  /-- DRESP_MISSING (R64). -/
  | drespMissing (port : Nat)
  /-- ANNOUNCE_RECEIPT_TIMEOUT (R49). -/
  | announceReceiptTimeout (port : Nat)
  /-- PDELAY_HOLD_END (R64). -/
  | pdelayHoldEnd (port : Nat)
  /-- PTP_REACQ (R57). -/
  | ptpReacq (a : Access) (port : Nat)
  /-- PTP_CTRL_WRITE (R65). -/
  | ptpCtrlWrite (a : Access) (port value : Nat)
  /-- TXTS_POP (R61). -/
  | txtsPop (a : Access) (port : Nat)
  /-- LINK_UP (R68). -/
  | linkUp (port : Nat)
  /-- LINK_DOWN (R68). -/
  | linkDown (port : Nat)
  /-- FRAME_RECEIVE (R70). -/
  | frameReceive (port : Nat) (f : Frame)
  /-- PAUSE_EXPIRY (R80). -/
  | pauseExpiry (port prio : Nat)
  /-- TAIL_WRITE (R398). -/
  | tailWrite (a : Access) (port ring value : Nat)
  /-- HOST_TRANSMIT (R72). -/
  | hostTransmit (port queue : Nat)
  /-- TX_DONE (R398): `launch` is the launch time in ns. -/
  | txDone (port queue launch : Nat)
  /-- FLUSHED (R73). -/
  | flushed (a : Access) (port queue : Nat)
  /-- ARP_REQUEST (R83). -/
  | arpRequest (port : Nat) (p : ArpPkt)
  /-- ARP_REPLY (R83). -/
  | arpReply (port : Nat) (p : ArpPkt)
  /-- GRATUITOUS_ANNOUNCEMENT (R83). -/
  | gratuitousAnnouncement (port : Nat)
  /-- ARP_AGE_OUT (R83). -/
  | arpAgeOut (port ip : Nat)
  /-- ARP_RETRY (R83). -/
  | arpRetry (port ip : Nat)
  /-- ICMP_ECHO (R83). -/
  | icmpEcho (port srcIp ident seq : Nat) (data : List Byte)
  /-- IGMP_QUERY (R83): the query's maximum response time in ms. -/
  | igmpQuery (port maxRespMs : Nat)
  /-- IGMP_REPORT (R83). -/
  | igmpReport (port : Nat)
  /-- UNSOLICITED_REPORT (R83). -/
  | unsolicitedReport (port group : Nat)
  /-- STREAM_PACKET (R94): `arrival` is the local time of arrival in ns. -/
  | streamPacket (port : Nat) (p : StreamPkt) (arrival : Nat)
  /-- STARVED (R96). -/
  | starved (ctx : Nat)
  /-- PACKET_RELEASE (R102). -/
  | packetRelease (ctx : Nat)
  /-- TX_LATE (R103). -/
  | txLate (ctx port : Nat)
  /-- IDENTITY_FADE_END (R107). -/
  | identityFadeEnd (tx : Bool) (ctx : Nat)
  /-- HELLO_STAGE0 (R114). -/
  | helloStage0 (src : UdpFrom) (b : HelloBody)
  /-- HELLO_STAGE1 (R116). -/
  | helloStage1 (src : UdpFrom) (b : HelloBody)
  /-- CHALLENGE_EXPIRY (R114): the outstanding challenge of this source. -/
  | challengeExpiry (src : UdpFrom)
  /-- HELLO_IGNORE_END (R117). -/
  | helloIgnoreEnd (addr : Nat)
  /-- OSP_MESSAGE (R119). -/
  | ospMessage (src : UdpFrom) (m : OspMsg)
  /-- SCENE_BEGIN (R127): session `ses` processes the message numbered E. -/
  | sceneBegin (ses : Nat)
  /-- OBJ_UPDATE (R123). -/
  | objUpdate (ses : Nat)
  /-- SCENE_COMMIT (R127). -/
  | sceneCommit (ses : Nat)
  /-- SCENE_ABORT (R127). -/
  | sceneAbort (ses : Nat)
  /-- BYE (R133). -/
  | bye (ses : Nat)
  /-- KEEPALIVE (R132). -/
  | keepalive (src : UdpFrom) (m : OspMsg)
  /-- NAK (R121). -/
  | nak (ses : Nat)
  /-- LOST (R122). -/
  | lost (ses : Nat)
  /-- BATCH_TIMEOUT (R129). -/
  | batchTimeout (ses : Nat)
  /-- KEEPALIVE_SEND (R132). -/
  | keepaliveSend (ses : Nat)
  /-- TIMEOUT (R132). -/
  | sessionTimeout (ses : Nat)
  /-- HOST_CLOSE (R133). -/
  | hostClose (a : Access) (ses : Nat)
  /-- ENGINE_OFF (R133). -/
  | engineOff (a : Access)
  /-- OWNER_WRITE (R126). -/
  | ownerWrite (a : Access) (obj value : Nat)
  /-- SAP_RECEIVE_FRAME (R149): local time in ns of the WS edge that starts the frame; and over the bit clocks from it up to the first
  sampling edge of the next frame, or until the clocks stop, WS and SD at the rising edges and at the falling edges. -/
  | sapReceiveFrame (port wsEdge : Nat) (ws sd wsFall sdFall : List Bool)
  /-- SAP_START (R143): the local time of the starting WS edge in ns. -/
  | sapStart (port wsEdge : Nat)
  /-- RATE_WINDOW_END (R145): peripheral clock cycles in the window of 4,096 WS periods. -/
  | rateWindowEnd (port cycles : Nat)
  /-- CLASS_NONE (R145). -/
  | classNone (port : Nat)
  /-- SAP_TRANSMIT_FRAME (R154): the clocks of the frame. -/
  | sapTransmitFrame (port : Nat) (clocks : SapFrameClocks)
  /-- BRM_WR (R159). -/
  | brmWr (a : Access) (queue value : Nat)
  /-- BRM_FLUSH (R160). -/
  | brmFlush (a : Access) (queue : Nat)
  /-- IDLE_FLUSH (R160). -/
  | idleFlush (queue : Nat)
  /-- POP (R161). -/
  | pop (a : Access) (queue : QueueRead)
  /-- QUEUE_RESET (R165). -/
  | queueReset (a : Access) (queue : Nat)
  /-- RESET_COMPLETE (R165). -/
  | resetComplete (queue : Nat)
  /-- MDI_HALFWORD (R170): the tag, the halfword when MDI_VALID is 1, and MDI_END. -/
  | mdiHalfword (tag : Nat) (data : Option (BitVec 16)) (last : Bool)
  /-- MDI_DISABLE (R173). -/
  | mdiDisable (a : Access)
  /-- SWAP_DONE (R219). -/
  | swapDone
  /-- LAYOUT_TABLE_WRITE (R220). -/
  | layoutTableWrite (a : Access) (addr value : Nat)
  /-- GHOST_RELEASE (R230). -/
  | ghostRelease (x : Nat)
  /-- ROUTE_RELEASE (R230). -/
  | routeRelease (x : Nat)
  /-- DELAY_XFADE_END (R233): the reader is an input channel (0), an object (1) or an output (2). -/
  | delayXfadeEnd (kind n : Nat)
  /-- XF_DONE (R256). -/
  | xfDone (out : Nat)
  /-- STAGE_GO (R259): the value written to CNV_STAGE_CTRL. -/
  | stageGo (a : Access) (value : Nat)
  /-- STAGE_DONE (R259). -/
  | stageDone
  /-- COEF_WRITE (R258). -/
  | coefWrite (a : Access) (addr size value : Nat)
  /-- NOP (R308). -/
  | luvNop (c : Nat)
  /-- WAITBLK (R284). -/
  | luvWaitblk (c : Nat)
  /-- SYNC (R278). -/
  | luvSync (c : Nat) (n : Fin 4)
  /-- RTI (R282). -/
  | luvRti (c : Nat)
  /-- B (R306). -/
  | luvB (c : Nat) (cond : Cond) (target : BitVec 14)
  /-- CALL (R307). -/
  | luvCall (c : Nat) (cond : Cond) (target : BitVec 14)
  /-- RET (R307). -/
  | luvRet (c : Nat) (cond : Cond)
  /-- LDI (R299). -/
  | luvLdi (c : Nat) (d : VReg) (imm : BitVec 24)
  /-- LDIA (R303). -/
  | luvLdia (c : Nat) (file : AFile) (n : AReg) (imm : BitVec 18)
  /-- MODI (R303). -/
  | luvModi (c : Nat) (n : AReg) (imm : BitVec 18)
  /-- MOV (R299). -/
  | luvMov (c : Nat) (dd : VReg) (b : AluB)
  /-- ADD (R299). -/
  | luvAdd (c : Nat) (dd da : VReg) (b : AluB)
  /-- SUB (R299). -/
  | luvSub (c : Nat) (dd da : VReg) (b : AluB)
  /-- ADDW (R299). -/
  | luvAddw (c : Nat) (dd da : VReg) (b : AluB)
  /-- SUBW (R299). -/
  | luvSubw (c : Nat) (dd da : VReg) (b : AluB)
  /-- NEG (R299). -/
  | luvNeg (c : Nat) (dd da : VReg)
  /-- ABS (R299). -/
  | luvAbs (c : Nat) (dd da : VReg)
  /-- AND (R299). -/
  | luvAnd (c : Nat) (dd da : VReg) (b : AluB)
  /-- OR (R299). -/
  | luvOr (c : Nat) (dd da : VReg) (b : AluB)
  /-- XOR (R299). -/
  | luvXor (c : Nat) (dd da : VReg) (b : AluB)
  /-- NOT (R299). -/
  | luvNot (c : Nat) (dd da : VReg)
  /-- ASL (R299). -/
  | luvAsl (c : Nat) (dd da : VReg) (b : ShiftB)
  /-- ASR (R299). -/
  | luvAsr (c : Nat) (dd da : VReg) (b : ShiftB)
  /-- LSR (R299). -/
  | luvLsr (c : Nat) (dd da : VReg) (b : ShiftB)
  /-- MIN (R299). -/
  | luvMin (c : Nat) (dd da : VReg) (b : AluB)
  /-- MAX (R299). -/
  | luvMax (c : Nat) (dd da : VReg) (b : AluB)
  /-- CMP (R299). -/
  | luvCmp (c : Nat) (da : VReg) (b : AluB)
  /-- SEL (R299). -/
  | luvSel (c : Nat) (dd da db : VReg) (cond : Cond)
  /-- LD (R297). -/
  | luvLd (c : Nat) (d : VReg) (p : AReg) (m : PostMod)
  /-- ST (R297). -/
  | luvSt (c : Nat) (d : VReg) (p : AReg) (m : PostMod)
  /-- STR (R297): the shift is a 3-bit signed field. -/
  | luvStr (c : Nat) (j : WReg) (p : AReg) (m : PostMod) (sh : BitVec 3)
  /-- CLR (R301). -/
  | luvClr (c : Nat) (mask : BitVec 4)
  /-- RND (R302): the shift is a 6-bit signed field. -/
  | luvRnd (c : Nat) (d : VReg) (j : WReg) (sh : BitVec 6)
  /-- TRN (R302). -/
  | luvTrn (c : Nat) (d : VReg) (j : WReg) (sh : BitVec 6)
  /-- LDA (R301). -/
  | luvLda (c : Nat) (j : WReg) (d : VReg)
  /-- ADDA (R301). -/
  | luvAdda (c : Nat) (j k : WReg)
  /-- SUBA (R301). -/
  | luvSuba (c : Nat) (j k : WReg)
  /-- SHA (R301). -/
  | luvSha (c : Nat) (j : WReg) (sh : BitVec 6)
  /-- MOVA (R301). -/
  | luvMova (c : Nat) (j k : WReg)
  /-- REP (R305). -/
  | luvRep (c : Nat) (n : RepCount)
  /-- MOVR (R304). -/
  | luvMovr (c : Nat) (dst src : MovReg)
  /-- MPY (R293). -/
  | luvMpy (c : Nat) (o : MacOps)
  /-- MAC (R293). -/
  | luvMac (c : Nat) (o : MacOps)
  /-- MSU (R293). -/
  | luvMsu (c : Nat) (o : MacOps)
  /-- ILLEGAL (R292): the word at the program counter is an illegal instruction there. -/
  | luvIllegal (c : Nat)
  /-- FABRIC_LOAD_RETURN (R277). -/
  | fabricLoadReturn (c : Nat)
  /-- INTERRUPT (R282). -/
  | interrupt (c : Nat)
  /-- DOORBELL (R282). -/
  | doorbell (a : Access) (c : Nat)
  /-- TIMER (R282). -/
  | timer (c : Nat)
  /-- PROGRAM_WRITE (R281): program word `w` of core `c`. -/
  | programWrite (a : Access) (c w value : Nat)
  /-- CORE_MEMORY_ACCESS (R280): a host access to the core window at `offset`; `freeCycle` says whether a free cycle
  came within 16 core cycles. -/
  | coreMemoryAccess (a : Access) (c offset : Nat) (write : Option Nat) (freeCycle : Bool)
  /-- RING_START (R312). -/
  | ringStart
  /-- ENUM (R312): received on a side. -/
  | enumFrame (side : Side) (f : EnumFrame)
  /-- TRAIN_LAUNCH (R319): `mirrorWords` is what the mirror changes of this train need. -/
  | trainLaunch (dir : Side) (mirrorWords : Nat)
  /-- LINES_FRAME (R324): received on the train that runs in direction `dir`. -/
  | linesFrame (dir : Side) (f : LinesFrame)
  /-- TIME_FRAME (R333): head's time in ns, head's block, correction in 48.16 ns, time held in the device in ns. -/
  | timeFrame (dir : Side) (timeNs block : Nat) (correction : Int) (held : Nat) (arrival : Nat)
  /-- DELAY_FRAME (R333): round trip and far side's turnaround, ns in 16.16. -/
  | delayFrame (side : Side) (roundTrip turnaround : Nat)
  /-- MIRROR_FRAME (R350). -/
  | mirrorFrame (f : MirrorFrame)
  /-- TUNNEL_REQUEST (R334): reaches this member; `write` carries the value of a write. -/
  | tunnelRequest (a : Access) (addr size : Nat) (write : Option Nat)
  /-- TUNNEL_ANSWER (R334). -/
  | tunnelAnswer (dev value cause : Nat)
  /-- TUNNEL_TIMEOUT (R336). -/
  | tunnelTimeout (dev : Nat)
  /-- LINE_DEADLINE (R326). -/
  | lineDeadline (dir : Side)
  /-- RING_LINK_DOWN (R328): the device's own link on a side, or a link further on reported by a WRAP notice. -/
  | ringLinkDown (link : Nat)
  /-- WRAP (R329). -/
  | wrap
  /-- RING_LINK_UP (R328). -/
  | ringLinkUp (link : Nat)
  /-- RING_RESET (R337): the value written to CAS_RST on the head, or (with no access) the head's reset that reaches
  this member. -/
  | ringReset (a : Option Access) (value : Nat)
  /-- CLAIM_IN_CHANGE (R342). -/
  | claimInChange (level : Bool)
  /-- CLAIM (R347). -/
  | claim
  /-- ECC_SRAM (R345). -/
  | eccSram
  /-- ECC_DRAM (R345). -/
  | eccDram
  /-- YIELD (R346). -/
  | yieldControl (a : Access)
  /-- RESYNC (R349). -/
  | resync (a : Access)
  /-- PARTNER_FAULT (R348). -/
  | partnerFault
  /-- PARTNER_LOST (R349). -/
  | partnerLost
  /-- RESYNC_CONFIG_APPLIED (R360): the copied configuration, register addresses and values. -/
  | resyncConfigApplied (config : List (Nat × Nat))
  /-- SYNCED (R360). -/
  | synced
  /-- BOOT (R374): what the boot finds outside, and whether the flash answers. -/
  | boot (found : BootFound) (flashAnswers : Bool)
  /-- PERSIST_DONE (R379). -/
  | persistDone
  /-- RB_ADVANCE (R368). -/
  | rbAdvance (a : Access)
  /-- READ_PAGE (R382). -/
  | readPage (a : Access)
  /-- PROGRAM_PAGE (R382). -/
  | programPage (a : Access)
  /-- ERASE_SECTOR (R382). -/
  | eraseSector (a : Access)
  /-- ERASE_SLOT (R382). -/
  | eraseSlot (a : Access)
  /-- FCMD_DONE (R382): whether the flash reported an error. -/
  | fcmdDone (error : Bool)
  /-- JOURNAL_CLEAR (R381). -/
  | journalClear (a : Access)
  /-- PCIE_REQUEST (R393): slot, BAR 0 offset, byte enables of its 32-bit words with their data, write or read. -/
  | pcieRequest (offset : Nat) (enables : List Nat) (data : List Nat) (write : Bool)
  /-- SPI_FRAME (R386): command byte, address, and the words written. -/
  | spiFrame (cmd addr : Nat) (data : List Nat)
  /-- SPI_ABORT (R391). -/
  | spiAbort
  /-- PCIE_LINK_RESET (R391): link down, hot reset, Function Level Reset or PCIE_PERSTn. -/
  | pcieLinkReset
  /-- DRAIN_END (R391): the master whose port has drained. -/
  | drainEnd (m : Nat)
  /-- DMA_GO (R399). -/
  | dmaGo (a : Access) (d : Nat)
  /-- DMA_ABORT (R399). -/
  | dmaAbort (a : Access) (d : Nat)
  /-- DMA_DONE (R399). -/
  | dmaDone (d : Nat)
  /-- IRQ_EOI (R401). -/
  | irqEoi (a : Access) (value : Nat)
  /-- OPEN_REQ (R404): the value written to SEC_OPEN_CTRL. -/
  | openReq (a : Access) (value : Nat)
  /-- PROVE (R404). -/
  | prove (a : Access) (value : Nat)
  /-- EXPIRED (R404). -/
  | expired (slot : Nat)
  /-- LOCKOUT_END (R406). -/
  | lockoutEnd (i : Iface)
  /-- CLOSE (R408). -/
  | sessionClose (a : Access)
  /-- KEY_LOAD (R409): the value written to SEC_KLOAD_CTRL. -/
  | keyLoad (a : Access) (value : Nat)
  /-- BEGIN (R411). -/
  | txnBegin (a : Access)
  /-- COMMIT (R415). -/
  | txnCommit (a : Access)
  /-- ROLLBACK (R416). -/
  | txnRollback (a : Access)
  /-- VALIDATION_PASS (R415): validation of the commit at the front of the order ends. -/
  | validationPass
  /-- TXN_TIMEOUT (R416). -/
  | txnTimeout (slot : Nat)
  /-- LIFECYCLE_GO (R420): the value written to SEC_LC_CTRL. -/
  | lifecycleGo (a : Access) (value : Nat)
  /-- REVOKE (R423). -/
  | revoke (a : Access) (value : Nat)
  /-- LOG_FLUSH (R426): a write of LOG_CTRL.FLUSH, or UNFLUSHED reaching AUTO. -/
  | logFlush (a : Option Access)
  /-- FLUSH_DONE (R426): how many entries of the flush became durable, and whether the flash failed. -/
  | flushDone (durable : Nat) (flashError : Bool)
  /-- POR (R427): a supply below its POR threshold, or all above for 2 ms. -/
  | por (suppliesGood : Bool)
  /-- PIN (R428): consecutive low samples of SYS_RSTn seen. -/
  | pinReset (lowSamples : Nat)
  /-- SOFT (R427): the value written to SYS_RSTCTRL. -/
  | softReset (a : Access) (value : Nat)
  /-- RESET (R430). -/
  | reset
  /-- RUN (R435). -/
  | pwrRun (a : Access)
  /-- QUIET (R436). -/
  | pwrQuiet (a : Access)
  /-- STANDBY (R437). -/
  | pwrStandby (a : Access)
  /-- OFF (R439). -/
  | pwrOff (a : Access)
  /-- WAKE (R438). -/
  | wake (src : WakeSource)
  /-- TST_WRITE (R443). -/
  | tstWrite (a : Access) (addr value : Nat)
  /-- HELD_FRAME_RELEASE (R444). -/
  | heldFrameRelease (port : Nat)
  /-- SUPPLY (R449). -/
  | supply (rail : Nat)
  /-- TEMP_UPDATE (R457): the reading in 0.01 °C. -/
  | tempUpdate (temp : Int)
  /-- REF_RISING_EDGE (R32): an edge, and the period just ended, in ps. -/
  | refRisingEdge (edge : RefEdge) (period : Nat)
  /-- FABRIC_STORE_DONE (R277). -/
  | fabricStoreDone (c : Nat)
  /-- RAIL_IN_WINDOW (R449). -/
  | railInWindow (rail : Nat)
  /-- PAIR_FAULT_IN_DEASSERT (R346). -/
  | pairFaultInDeassert
  /-- CHALLENGE_DRAWN (R404). -/
  | challengeDrawn (slot : Nat)
  /-- MAC_CHECKED (R404). -/
  | macChecked (slot : Nat)
  deriving DecidableEq, Repr

end Sys2Proof
end

