-- ==== Sys2Proof/Decode.lean ====
section
/-!
DEFINITION. The instruction words of the Luveren cores (R291 to R308): decoding, which answers the command of core `c`
for a legal word and nothing for an illegal one, and encoding. The operation table gives its rows no bits, so the
decoder of table words answers nothing.
-/

namespace Sys2Proof

/-- The command that a word of the operation table spells: no row of the table gives bits. -/
def decodeTableWord (_nbits _w : Nat) : Option Instr := none

/-! ## Fields -/

/-- Bits [hi:lo] of a word. -/
def bitsOf (hi lo w : Nat) : Nat := w / 2 ^ lo % 2 ^ (hi + 1 - lo)

def vreg (n : Nat) : VReg := Fin.ofNat 16 n
def areg (n : Nat) : AReg := Fin.ofNat 8 n
def wreg (n : Nat) : WReg := Fin.ofNat 4 n

/-- The conditions of R306; codes 11 to 15 are illegal. -/
def condOf : Nat → Option Cond
  | 0 => some .al | 1 => some .eq | 2 => some .ne | 3 => some .lt | 4 => some .ge | 5 => some .le | 6 => some .gt
  | 7 => some .vs | 8 => some .vc | 9 => some .ss | 10 => some .sc | _ => none

def Cond.code : Cond → Nat
  | .al => 0 | .eq => 1 | .ne => 2 | .lt => 3 | .ge => 4 | .le => 5 | .gt => 6 | .vs => 7 | .vc => 8 | .ss => 9 | .sc => 10

/-! ## Decoding, format by format -/

/-- Format 0x0 (R308). -/
def decodeControl (c w : Nat) : Option Instr :=
  let sub := bitsOf 27 24 w
  let rest := bitsOf 23 0 w
  if sub = 0 then if rest = 0 then some (.luvNop c) else none
  else if sub = 1 then if rest = 0 then some (.luvWaitblk c) else none
  else if sub = 2 then if rest < 4 then some (.luvSync c (Fin.ofNat 4 rest)) else none
  else if sub = 3 then if rest = 0 then some (.luvRti c) else none
  else none

/-- Format 0x1 (R306). -/
def decodeBranch (c w : Nat) : Option Instr :=
  let kind := bitsOf 27 26 w
  let target := bitsOf 13 0 w
  if bitsOf 21 14 w ≠ 0 then none
  else match condOf (bitsOf 25 22 w) with
    | none => none
    | some k =>
      if kind = 0 then some (.luvB c k (BitVec.ofNat 14 target))
      else if kind = 1 then some (.luvCall c k (BitVec.ofNat 14 target))
      else if kind = 2 then if target = 0 then some (.luvRet c k) else none
      else none

/-- Format 0x2 (R299). -/
def decodeLdi (c w : Nat) : Option Instr :=
  some (.luvLdi c (vreg (bitsOf 27 24 w)) (BitVec.ofNat 24 (bitsOf 23 0 w)))

/-- Format 0x3 (R303): an extent above 131,072 is illegal. -/
def decodeAddr (c w : Nat) : Option Instr :=
  let file := bitsOf 27 26 w
  let n := areg (bitsOf 25 23 w)
  let imm := bitsOf 17 0 w
  if bitsOf 22 18 w ≠ 0 then none
  else if file = 0 then some (.luvLdia c .p n (BitVec.ofNat 18 imm))
  else if file = 1 then some (.luvLdia c .u n (BitVec.ofNat 18 imm))
  else if file = 2 then if 131072 < imm then none else some (.luvLdia c .e n (BitVec.ofNat 18 imm))
  else some (.luvModi c n (BitVec.ofNat 18 imm))

/-- The operation of the ALU table with its operands (R298, R299): `aZero` and `bZero` say that the fields of a and b are
0; `imm` is the immediate format, in which an operation without an immediate form is illegal. -/
def aluInstr (c op : Nat) (dd da : VReg) (b : AluB) (sh : Option ShiftB) (cond : Cond) (db : VReg)
    (ddZero aZero bZero imm condZero : Bool) : Option Instr :=
  let plain := fun (i : Instr) => if condZero then some i else none
  let unary := fun (i : Instr) => if bZero && condZero && !imm then some i else none
  let shift := fun (f : ShiftB → Instr) => if condZero then sh.map f else none
  match op with
  | 0x00 => if aZero then plain (.luvMov c dd b) else none
  | 0x01 => plain (.luvAdd c dd da b)
  | 0x02 => plain (.luvSub c dd da b)
  | 0x03 => plain (.luvAddw c dd da b)
  | 0x04 => plain (.luvSubw c dd da b)
  | 0x05 => unary (.luvNeg c dd da)
  | 0x06 => unary (.luvAbs c dd da)
  | 0x07 => plain (.luvAnd c dd da b)
  | 0x08 => plain (.luvOr c dd da b)
  | 0x09 => plain (.luvXor c dd da b)
  | 0x0A => unary (.luvNot c dd da)
  | 0x0B => shift (.luvAsl c dd da)
  | 0x0C => shift (.luvAsr c dd da)
  | 0x0D => shift (.luvLsr c dd da)
  | 0x0E => plain (.luvMin c dd da b)
  | 0x0F => plain (.luvMax c dd da b)
  | 0x10 => if ddZero then plain (.luvCmp c da b) else none
  | 0x11 => if imm then none else some (.luvSel c dd da db cond)
  | _ => none

/-- Format 0x4: bits [10:4] are reserved and [3:0] hold the condition of SEL. -/
def decodeAluReg (c w : Nat) : Option Instr :=
  let cond := bitsOf 3 0 w
  let dd := bitsOf 22 19 w
  let da := bitsOf 18 15 w
  let db := bitsOf 14 11 w
  if bitsOf 10 4 w ≠ 0 then none
  else match condOf cond with
    | none => none
    | some k => aluInstr c (bitsOf 27 23 w) (vreg dd) (vreg da) (.reg (vreg db)) (some (.reg (vreg db))) k (vreg db)
        (decide (dd = 0)) (decide (da = 0)) (decide (db = 0)) false (decide (cond = 0))

/-- Format 0x5: a 15-bit immediate; a shift uses its low 5 bits. -/
def decodeAluImm (c w : Nat) : Option Instr :=
  let dd := bitsOf 22 19 w
  let da := bitsOf 18 15 w
  let imm := bitsOf 14 0 w
  aluInstr c (bitsOf 27 23 w) (vreg dd) (vreg da) (.imm (BitVec.ofNat 15 imm))
    (if imm < 32 then some (.imm (Fin.ofNat 32 imm)) else none) .al (vreg 0)
    (decide (dd = 0)) (decide (da = 0)) (decide (imm = 0)) true true

/-- The post-modification of a load or store (R296). -/
def postModOf (mode imm : Nat) : Option PostMod :=
  if mode = 2 then some (.byImm (BitVec.ofNat 12 imm))
  else if imm ≠ 0 then none
  else if mode = 0 then some .none
  else if mode = 1 then some .byU
  else none

/-- Format 0x6 (R296). -/
def decodeMem (c w : Nat) : Option Instr :=
  let kind := bitsOf 27 26 w
  let reg := bitsOf 25 22 w
  let p := areg (bitsOf 21 19 w)
  let sh := bitsOf 14 12 w
  if bitsOf 16 15 w ≠ 0 then none
  else match postModOf (bitsOf 18 17 w) (bitsOf 11 0 w) with
    | none => none
    | some m =>
      if kind = 0 then if sh = 0 then some (.luvLd c (vreg reg) p m) else none
      else if kind = 1 then if sh = 0 then some (.luvSt c (vreg reg) p m) else none
      else if kind = 2 then if reg < 4 then some (.luvStr c (wreg reg) p m (BitVec.ofNat 3 sh)) else none
      else none

/-- Format 0x7 (R301): fields that an operation does not use are 0. -/
def decodeAcc (c w : Nat) : Option Instr :=
  let op := bitsOf 27 24 w
  let j := bitsOf 23 22 w
  let k := bitsOf 21 20 w
  let d := bitsOf 19 16 w
  let sh := bitsOf 15 10 w
  let mask := bitsOf 3 0 w
  if bitsOf 9 4 w ≠ 0 then none
  else if op = 0 then if j = 0 ∧ k = 0 ∧ d = 0 ∧ sh = 0 then some (.luvClr c (BitVec.ofNat 4 mask)) else none
  else if mask ≠ 0 then none
  else if op = 1 then if k = 0 then some (.luvRnd c (vreg d) (wreg j) (BitVec.ofNat 6 sh)) else none
  else if op = 2 then if k = 0 then some (.luvTrn c (vreg d) (wreg j) (BitVec.ofNat 6 sh)) else none
  else if op = 3 then if k = 0 ∧ sh = 0 then some (.luvLda c (wreg j) (vreg d)) else none
  else if op = 4 then if d = 0 ∧ sh = 0 then some (.luvAdda c (wreg j) (wreg k)) else none
  else if op = 5 then if d = 0 ∧ sh = 0 then some (.luvSuba c (wreg j) (wreg k)) else none
  else if op = 6 then if k = 0 ∧ d = 0 then some (.luvSha c (wreg j) (BitVec.ofNat 6 sh)) else none
  else if op = 7 then if d = 0 ∧ sh = 0 then some (.luvMova c (wreg j) (wreg k)) else none
  else none

/-- Format 0x8 (R305). -/
def decodeRep (c w : Nat) : Option Instr :=
  let d := bitsOf 26 23 w
  let count := bitsOf 15 0 w
  if bitsOf 22 16 w ≠ 0 then none
  else if bitsOf 27 27 w = 0 then if d = 0 then some (.luvRep c (.imm (BitVec.ofNat 16 count))) else none
  else if count = 0 then some (.luvRep c (.reg (vreg d))) else none

/-- A register of MOVR: codes 5 to 7 and numbers out of range are illegal (R304). -/
def movRegOf (file n : Nat) : Option MovReg :=
  if file = 0 then some (.v (vreg n))
  else if file = 1 then if n < 8 then some (.p (areg n)) else none
  else if file = 2 then if n < 8 then some (.u (areg n)) else none
  else if file = 3 then if n < 8 then some (.e (areg n)) else none
  else if file = 4 then if n = 0 then some .fw else none
  else none

/-- Format 0x9. -/
def decodeMovr (c w : Nat) : Option Instr :=
  if bitsOf 13 0 w ≠ 0 then none
  else match movRegOf (bitsOf 27 25 w) (bitsOf 24 21 w), movRegOf (bitsOf 20 18 w) (bitsOf 17 14 w) with
    | some d, some s => some (.luvMovr c d s)
    | _, _ => none

def macModOf : Nat → MacMod
  | 0 => .none | 1 => .up | 2 => .down | _ => .byU

def MacMod.code : MacMod → Nat
  | .none => 0 | .up => 1 | .down => 2 | .byU => 3

/-- The first operand of a multiply-accumulate: DB is used when BS is 0. -/
def macFirstOf (bs db : Nat) : Option MacFirst :=
  if bs = 0 then some (.reg (vreg db)) else if db = 0 then some .sWord else none

/-- The second operand: KD 0 reads the K bus, and DS is unused; KD 1 leaves KI and KM 0. -/
def macSecondOf (quad : Bool) (kd ds ki km : Nat) : Option MacSecond :=
  if kd = 0 then if ds = 0 then some (.kBus (areg ki) (macModOf km)) else none
  else if ki ≠ 0 ∨ km ≠ 0 then none
  else if quad then if ds < 4 then some (.quadRegs (wreg ds)) else none
  else some (.reg (vreg ds))

/-- The S access: made when BS or PL is 1; otherwise SI and SM are 0. -/
def macSOf (bs pl si sm : Nat) : Option (Option (AReg × MacMod)) :=
  if bs = 0 ∧ pl = 0 then if si = 0 ∧ sm = 0 then some none else none
  else some (some (areg si, macModOf sm))

/-- Formats 0xC to 0xF (R293, R294). -/
def decodeMac (c w : Nat) : Option Instr :=
  let quad := decide (bitsOf 27 27 w = 1)
  let acc := bitsOf 16 15 w
  let pl := bitsOf 4 4 w
  let pd := bitsOf 3 0 w
  if (quad = true ∧ acc ≠ 0) ∨ (pl = 0 ∧ pd ≠ 0) then none
  else match macFirstOf (bitsOf 26 26 w) (bitsOf 25 22 w),
      macSecondOf quad (bitsOf 21 21 w) (bitsOf 20 17 w) (bitsOf 9 7 w) (bitsOf 6 5 w),
      macSOf (bitsOf 26 26 w) pl (bitsOf 14 12 w) (bitsOf 11 10 w) with
    | some f, some g, some sAcc =>
      let o : MacOps := { quad := quad, first := f, second := g, acc := wreg acc, sAcc := sAcc
                          load := if pl = 1 then some (vreg pd) else none }
      match bitsOf 29 28 w with
      | 0 => some (.luvMpy c o)
      | 1 => some (.luvMac c o)
      | 2 => some (.luvMsu c o)
      | _ => none
    | _, _, _ => none

/-- The instruction of a 32-bit word at core `c`, or nothing where the word is illegal (R291, R292). -/
def decodeLuv (c w : Nat) : Option Instr :=
  match bitsOf 31 28 w with
  | 0x0 => decodeControl c w
  | 0x1 => decodeBranch c w
  | 0x2 => decodeLdi c w
  | 0x3 => decodeAddr c w
  | 0x4 => decodeAluReg c w
  | 0x5 => decodeAluImm c w
  | 0x6 => decodeMem c w
  | 0x7 => decodeAcc c w
  | 0x8 => decodeRep c w
  | 0x9 => decodeMovr c w
  | 0xA => none
  | 0xB => none
  | _ => decodeMac c w

/-! ## Encoding -/

def AluB.encode : AluB → Nat
  | .reg r => 0x40000000 + r.val * 2 ^ 11
  | .imm i => 0x50000000 + i.toNat

def ShiftB.encode : ShiftB → Nat
  | .reg r => 0x40000000 + r.val * 2 ^ 11
  | .imm i => 0x50000000 + i.val

/-- An ALU word: operation, destination, operand a and the bits of operand b with its format. -/
def aluWord (op dd da b : Nat) : Nat := op * 2 ^ 23 + dd * 2 ^ 19 + da * 2 ^ 15 + b

def PostMod.encode : PostMod → Nat
  | .none => 0
  | .byU => 2 ^ 17
  | .byImm i => 2 * 2 ^ 17 + i.toNat

def memWord (kind reg p : Nat) (m : PostMod) (sh : Nat) : Nat :=
  0x60000000 + kind * 2 ^ 26 + reg * 2 ^ 22 + p * 2 ^ 19 + sh * 2 ^ 12 + m.encode

def accWord (op j k d sh mask : Nat) : Nat :=
  0x70000000 + op * 2 ^ 24 + j * 2 ^ 22 + k * 2 ^ 20 + d * 2 ^ 16 + sh * 2 ^ 10 + mask

def MovReg.file : MovReg → Nat
  | .v _ => 0 | .p _ => 1 | .u _ => 2 | .e _ => 3 | .fw => 4

def MovReg.num : MovReg → Nat
  | .v n => n.val | .p n => n.val | .u n => n.val | .e n => n.val | .fw => 0

def MacFirst.encode : MacFirst → Nat
  | .reg r => r.val * 2 ^ 22
  | .sWord => 2 ^ 26

def MacSecond.encode : MacSecond → Nat
  | .kBus p m => p.val * 2 ^ 7 + m.code * 2 ^ 5
  | .reg r => 2 ^ 21 + r.val * 2 ^ 17
  | .quadRegs k => 2 ^ 21 + k.val * 2 ^ 17

/-- A multiply-accumulate word (R293). -/
def macWord (op : Nat) (o : MacOps) : Nat :=
  0xC0000000 + op * 2 ^ 28 + (if o.quad then 2 ^ 27 else 0) + o.first.encode + o.second.encode + o.acc.val * 2 ^ 15
    + (match o.sAcc with | none => 0 | some (p, m) => p.val * 2 ^ 12 + m.code * 2 ^ 10)
    + (match o.load with | none => 0 | some d => 2 ^ 4 + d.val)

def AFile.code : AFile → Nat
  | .p => 0 | .u => 1 | .e => 2

def branchWord (kind : Nat) (k : Cond) (target : Nat) : Nat :=
  0x10000000 + kind * 2 ^ 26 + k.code * 2 ^ 22 + target

/-- The word of a Luveren instruction; commands that are no instruction have none. -/
def encodeLuv : Instr → Option Nat
  | .luvNop _ => some 0
  | .luvWaitblk _ => some 0x01000000
  | .luvSync _ n => some (0x02000000 + n.val)
  | .luvRti _ => some 0x03000000
  | .luvB _ k t => some (branchWord 0 k t.toNat)
  | .luvCall _ k t => some (branchWord 1 k t.toNat)
  | .luvRet _ k => some (branchWord 2 k 0)
  | .luvLdi _ d imm => some (0x20000000 + d.val * 2 ^ 24 + imm.toNat)
  | .luvLdia _ f n imm => some (0x30000000 + f.code * 2 ^ 26 + n.val * 2 ^ 23 + imm.toNat)
  | .luvModi _ n imm => some (0x3C000000 + n.val * 2 ^ 23 + imm.toNat)
  | .luvMov _ dd b => some (aluWord 0x00 dd.val 0 b.encode)
  | .luvAdd _ dd da b => some (aluWord 0x01 dd.val da.val b.encode)
  | .luvSub _ dd da b => some (aluWord 0x02 dd.val da.val b.encode)
  | .luvAddw _ dd da b => some (aluWord 0x03 dd.val da.val b.encode)
  | .luvSubw _ dd da b => some (aluWord 0x04 dd.val da.val b.encode)
  | .luvNeg _ dd da => some (aluWord 0x05 dd.val da.val 0x40000000)
  | .luvAbs _ dd da => some (aluWord 0x06 dd.val da.val 0x40000000)
  | .luvAnd _ dd da b => some (aluWord 0x07 dd.val da.val b.encode)
  | .luvOr _ dd da b => some (aluWord 0x08 dd.val da.val b.encode)
  | .luvXor _ dd da b => some (aluWord 0x09 dd.val da.val b.encode)
  | .luvNot _ dd da => some (aluWord 0x0A dd.val da.val 0x40000000)
  | .luvAsl _ dd da b => some (aluWord 0x0B dd.val da.val b.encode)
  | .luvAsr _ dd da b => some (aluWord 0x0C dd.val da.val b.encode)
  | .luvLsr _ dd da b => some (aluWord 0x0D dd.val da.val b.encode)
  | .luvMin _ dd da b => some (aluWord 0x0E dd.val da.val b.encode)
  | .luvMax _ dd da b => some (aluWord 0x0F dd.val da.val b.encode)
  | .luvCmp _ da b => some (aluWord 0x10 0 da.val b.encode)
  | .luvSel _ dd da db k => some (aluWord 0x11 dd.val da.val (0x40000000 + db.val * 2 ^ 11 + k.code))
  | .luvLd _ d p m => some (memWord 0 d.val p.val m 0)
  | .luvSt _ d p m => some (memWord 1 d.val p.val m 0)
  | .luvStr _ j p m sh => some (memWord 2 j.val p.val m sh.toNat)
  | .luvClr _ mask => some (accWord 0 0 0 0 0 mask.toNat)
  | .luvRnd _ d j sh => some (accWord 1 j.val 0 d.val sh.toNat 0)
  | .luvTrn _ d j sh => some (accWord 2 j.val 0 d.val sh.toNat 0)
  | .luvLda _ j d => some (accWord 3 j.val 0 d.val 0 0)
  | .luvAdda _ j k => some (accWord 4 j.val k.val 0 0 0)
  | .luvSuba _ j k => some (accWord 5 j.val k.val 0 0 0)
  | .luvSha _ j sh => some (accWord 6 j.val 0 0 sh.toNat 0)
  | .luvMova _ j k => some (accWord 7 j.val k.val 0 0 0)
  | .luvRep _ (.imm n) => some (0x80000000 + n.toNat)
  | .luvRep _ (.reg r) => some (0x88000000 + r.val * 2 ^ 23)
  | .luvMovr _ d s => some (0x90000000 + d.file * 2 ^ 25 + d.num * 2 ^ 21 + s.file * 2 ^ 18 + s.num * 2 ^ 14)
  | .luvMpy _ o => some (macWord 0 o)
  | .luvMac _ o => some (macWord 1 o)
  | .luvMsu _ o => some (macWord 2 o)
  | _ => none

end Sys2Proof
end

