-- ==== Sys2Proof/Machine/Crypto.lean ====
section
/-!
DEFINITION. The published algorithms the device's checks name: SHA-256 and HMAC-SHA-256 (R115, R116, R366, R379, R404),
AES key unwrap with a 256-bit key (R370, R409), ECDSA over P-256 (R366). Words are naturals below 2^32.
The algorithms stand in FIPS 180-4, RFC 2104, FIPS 197, RFC 3394 and FIPS 186-4, which the manual names (log entry 12).
-/

namespace Sys2Proof.Machine

/-! ## SHA-256 -/

/-- The 64 round constants, eight words of 32 bits to a row: the first 32 bits of the fraction of each prime's cube root. -/
def shaRoots : List Nat :=
  [0x428a2f9871374491b5c0fbcfe9b5dba53956c25b59f111f1923f82a4ab1c5ed5,
   0xd807aa9812835b01243185be550c7dc372be5d7480deb1fe9bdc06a7c19bf174,
   0xe49b69c1efbe47860fc19dc6240ca1cc2de92c6f4a7484aa5cb0a9dc76f988da,
   0x983e5152a831c66db00327c8bf597fc7c6e00bf3d5a7914706ca635114292967,
   0x27b70a852e1b21384d2c6dfc53380d13650a7354766a0abb81c2c92e92722c85,
   0xa2bfe8a1a81a664bc24b8b70c76c51a3d192e819d6990624f40e3585106aa070,
   0x19a4c1161e376c082748774c34b0bcb5391c0cb34ed8aa4a5b9cca4f682e6ff3,
   0x748f82ee78a5636f84c878148cc7020890befffaa4506cebbef9a3f7c67178f2]

/-- Word `i` of a row of eight. -/
def rowWord (row i : Nat) : Nat := row / 2 ^ (32 * (7 - i)) % 2 ^ 32

/-- A row as its eight words. -/
def rowWords (row : Nat) : List Nat := (List.range 8).map (rowWord row)

/-- The hash value before the first block, one row: the first 32 bits of the fraction of the square roots of eight primes. -/
def shaStart : Nat := 0x6a09e667bb67ae853c6ef372a54ff53a510e527f9b05688c1f83d9ab5be0cd19

/-- A word rotated right: the word stands twice beside itself and is read from bit `n`. -/
def rotr32 (x n : Nat) : Nat := x * (2 ^ 32 + 1) / 2 ^ n % 2 ^ 32

/-- The exclusive or of a word's rotations. -/
def rotations (ns : List Nat) (x : Nat) : Nat := (ns.map (rotr32 x)).foldl Nat.xor 0

/-- The schedule's word after the sixteen of `w`, the oldest first. -/
def shaNext (w : List Nat) : Nat :=
  let early := w.getD 1 0
  let late := w.getD 14 0
  ([w.getD 0 0, w.getD 9 0, Nat.xor (rotations [7, 18] early) (early / 2 ^ 3),
    Nat.xor (rotations [17, 19] late) (late / 2 ^ 10)].sum) % 2 ^ 32

/-- A round on the working words `a` to `h`, with the round's constant and schedule word added up in `kw`. Choose takes the
bits of `g` and, where `e` is 1, those of `f`; majority is where `a` and `b` agree, else `c`. -/
def shaRound (v : List Nat) (kw : Nat) : List Nat :=
  match v with
  | [a, b, c, d, e, f, g, h] =>
    let choose := Nat.xor g (Nat.land e (Nat.xor f g))
    let major := Nat.xor (Nat.land a b) (Nat.land c (Nat.xor a b))
    let t := h + rotations [6, 11, 25] e + choose + kw
    [(t + rotations [2, 13, 22] a + major) % 2 ^ 32, a, b, c, (d + t) % 2 ^ 32, e, f, g]
  | _ => v

/-- The rounds over rows of constants: `w` holds the schedule's next sixteen words, and each round moves it on by one. -/
def shaRounds : List Nat → List Nat → List Nat → List Nat
  | [], _, v => v
  | k :: ks, w, v => shaRounds ks (w.drop 1 ++ [shaNext w]) (shaRound v (k + w.headD 0))

/-- One block of 64 bytes. -/
def shaBlock (h : List Nat) (block : List Byte) : List Nat :=
  let w := (List.range 16).map fun i => ofBe ((block.drop (4 * i)).take 4)
  (shaRounds (shaRoots.flatMap rowWords) w h).zipWith (fun x y => (x + y) % 2 ^ 32) h

/-- All blocks of a padded message, `n` of them. -/
def shaBlocks : Nat → List Nat → List Byte → List Nat
  | 0, h, _ => h
  | n + 1, h, m => shaBlocks n (shaBlock h (m.take 64)) (m.drop 64)

/-- SHA-256 of a byte string, 32 bytes. -/
def sha256 (m : List Byte) : List Byte :=
  let len := m.length
  let pad := m ++ [0x80] ++ List.replicate ((119 - len % 64) % 64) 0 ++ beBytes 8 (8 * len)
  ((shaBlocks (pad.length / 64) (rowWords shaStart) pad).map (beBytes 4)).flatten

/-- HMAC-SHA-256. -/
def hmacSha256 (key msg : List Byte) : List Byte :=
  let k := (if 64 < key.length then sha256 key else key)
  let k := k ++ List.replicate (64 - k.length) 0
  sha256 (k.map (· ^^^ 0x5C) ++ sha256 (k.map (· ^^^ 0x36) ++ msg))

/-! ## AES key unwrap -/

/-- The S-box and its inverse: sixteen rows of sixteen bytes. -/
def aesBox : List Nat :=
  [0x637c777bf26b6fc53001672bfed7ab76, 0xca82c97dfa5947f0add4a2af9ca472c0,
   0xb7fd9326363ff7cc34a5e5f171d83115, 0x04c723c31896059a071280e2eb27b275,
   0x09832c1a1b6e5aa0523bd6b329e32f84, 0x53d100ed20fcb15b6acbbe394a4c58cf,
   0xd0efaafb434d338545f9027f503c9fa8, 0x51a3408f929d38f5bcb6da2110fff3d2,
   0xcd0c13ec5f974417c4a77e3d645d1973, 0x60814fdc222a908846eeb814de5e0bdb,
   0xe0323a0a4906245cc2d3ac629195e479, 0xe7c8376d8dd54ea96c56f4ea657aae08,
   0xba78252e1ca6b4c6e8dd741f4bbd8b8a, 0x703eb5664803f60e613557b986c11d9e,
   0xe1f8981169d98e949b1e87e9ce5528df, 0x8ca1890dbfe6426841992d0fb054bb16]

def aesInvBox : List Nat :=
  [0x52096ad53036a538bf40a39e81f3d7fb, 0x7ce339829b2fff87348e4344c4dee9cb,
   0x547b9432a6c2233dee4c950b42fac34e, 0x082ea16628d924b2765ba2496d8bd125,
   0x72f8f66486689816d4a45ccc5d65b692, 0x6c704850fdedb9da5e154657a78d9d84,
   0x90d8ab008cbcd30af7e45805b8b34506, 0xd02c1e8fca3f0f02c1afbd0301138a6b,
   0x3a9111414f67dcea97f2cfcef0b4e673, 0x96ac7422e7ad3585e2f937e81c75df6e,
   0x47f11a711d29c5896fb7620eaa18be1b, 0xfc563e4bc6d279209adbc0fe78cd5af4,
   0x1fdda8338807c731b11210592780ec5f, 0x60517fa919b54a0d2de57a9f93c99cef,
   0xa0e03b4dae2af5b0c8ebbb3c83539961, 0x172b047eba77d626e169146355210c7d]

/-- Entry `x` of a box. -/
def aesEntry (box : List Nat) (x : Nat) : Nat := box.getD (x / 16) 0 / 256 ^ (15 - x % 16) % 256

def aesSub (x : Nat) : Nat := aesEntry aesBox x

def aesInvSub (x : Nat) : Nat := aesEntry aesInvBox x

/-- Doubling in GF(2^8). -/
def gfDouble (x : Nat) : Nat := if x < 128 then 2 * x else Nat.xor (2 * x - 256) 0x1B

/-- The product in GF(2^8), over the low `n` bits of `y`. -/
def gfMul : Nat → Nat → Nat → Nat
  | 0, _, _ => 0
  | n + 1, x, y => Nat.xor (if y % 2 = 1 then x else 0) (gfMul n (gfDouble x) (y / 2))

/-- The key schedule of AES-256: words of four bytes, the newest first. -/
def aesExpand : Nat → Nat → Nat → List (List Nat) → List (List Nat)
  | 0, _, _, w => w
  | n + 1, i, rc, w =>
    let prev := w.getD 0 []
    let t := if i % 8 = 0 then
        let r := (prev.drop 1 ++ prev.take 1).map aesSub
        [Nat.xor (r.getD 0 0) rc] ++ r.drop 1
      else if i % 8 = 4 then prev.map aesSub else prev
    let x := List.zipWith Nat.xor (w.getD 7 []) t
    aesExpand n (i + 1) (if i % 8 = 0 then gfDouble rc else rc) (x :: w)

/-- The fifteen round keys, as columns of the whole schedule in order. -/
def aesKeys (key : List Nat) : List Nat :=
  let w := (List.range 8).map fun i => (key.drop (4 * i)).take 4
  ((aesExpand 52 8 1 w.reverse).reverse).flatten

def aesInvShift (b : List Nat) : List Nat :=
  (List.range 16).map fun i => b.getD (4 * ((i / 4 + 4 - i % 4) % 4) + i % 4) 0

def aesInvMixCol (c : List Nat) : List Nat :=
  (List.range 4).map fun i =>
    [14, 11, 13, 9].zipIdx.foldl (fun a m => Nat.xor a (gfMul 4 (c.getD ((i + m.2) % 4) 0) m.1)) 0

def aesInvMix (b : List Nat) : List Nat :=
  ((List.range 4).map fun i => aesInvMixCol ((b.drop (4 * i)).take 4)).flatten

/-- The inverse rounds `n` down to 1. -/
def aesInvRounds (ks : List Nat) : Nat → List Nat → List Nat
  | 0, b => b
  | n + 1, b =>
    let k := (ks.drop (16 * n)).take 16
    let x := List.zipWith Nat.xor ((aesInvShift b).map aesInvSub) k
    aesInvRounds ks n (if n = 0 then x else aesInvMix x)

/-- AES-256 decryption of one block of 16 bytes. -/
def aesDecrypt (key block : List Nat) : List Nat :=
  let ks := aesKeys key
  aesInvRounds ks 14 (List.zipWith Nat.xor block ((ks.drop 224).take 16))

/-- One inverse step of RFC 3394: `t` is the step number, A the register, R the blocks with the one in hand last. -/
def unwrapSteps (key : List Nat) : Nat → List Nat → List (List Nat) → List Nat × List (List Nat)
  | 0, a, r => (a, r)
  | t + 1, a, r =>
    let tb := (beBytes 8 (t + 1)).map (·.toNat)
    let d := aesDecrypt key (List.zipWith Nat.xor a tb ++ r.getLastD [])
    unwrapSteps key t (d.take 8) (d.drop 8 :: r.dropLast)

/-- RFC 3394 key unwrap of 40 bytes under a 32-byte key: the 32-byte key inside, or nothing where the check fails. -/
def keyUnwrap (key wrapped : List Byte) : Option (List Byte) :=
  let b := wrapped.map (·.toNat)
  let r := (List.range 4).map fun i => (b.drop (8 + 8 * i)).take 8
  let (a, r) := unwrapSteps (key.map (·.toNat)) 24 (b.take 8) r
  if a = List.replicate 8 0xA6 ∧ wrapped.length = 40 then some (r.flatten.map (BitVec.ofNat 8)) else none

/-! ## ECDSA over P-256 -/

def p256P : Nat := 0xffffffff00000001000000000000000000000000ffffffffffffffffffffffff
def p256N : Nat := 0xffffffff00000000ffffffffffffffffbce6faada7179e84f3b9cac2fc632551
def p256B : Nat := 0x5ac635d8aa3a93e7b3ebbd55769886bc651d06b0cc53b0f63bce3c3e27d2604b
def p256G : Nat × Nat :=
  (0x6b17d1f2e12c4247f8bce6e563a440f277037d812deb33a0f4a13945d898c296,
   0x4fe342e2fe1a7f9b8ee7eb4a7c0f9e162bce33576b315ececbb6406837bf51f5)

/-- Powers modulo `m`, over the low `n` digits of the exponent in base 256, the highest digit first. -/
def powMod (m : Nat) : Nat → Nat → Nat → Nat
  | 0, _, _ => 1 % m
  | n + 1, b, e => powMod m n b (e / 256) ^ 256 % m * (b ^ (e % 256) % m) % m

/-- The inverse modulo a prime of at most 256 bits. -/
def invMod (m x : Nat) : Nat := powMod m 32 (x % m) (m - 2)

/-- A point of the curve; `none` is the point at infinity. -/
abbrev EcPoint := Option (Nat × Nat)

def ecAdd : EcPoint → EcPoint → EcPoint
  | none, q => q
  | p, none => p
  | some (x1, y1), some (x2, y2) =>
    let p := p256P
    if x1 = x2 ∧ (y1 + y2) % p = 0 then none
    else
      let l := if x1 = x2 then (3 * x1 * x1 + p - 3) * invMod p (2 * y1) % p
        else (y2 + p - y1) * invMod p (x2 + p - x1) % p
      let x3 := (l * l + 2 * p - x1 - x2) % p
      some (x3, (l * (x1 + p - x3) + p - y1) % p)

/-- A multiple of a point, over the low `n` bits of the factor. -/
def ecMul : Nat → Nat → EcPoint → EcPoint
  | 0, _, _ => none
  | n + 1, k, q => ecAdd (if k % 2 = 1 then q else none) (ecMul n (k / 2) (ecAdd q q))

/-- The point lies on the curve. -/
def onCurve (x y : Nat) : Bool :=
  decide (x < p256P) && decide (y < p256P) &&
    y * y % p256P == (x * x * x + (p256P - 3) * x + p256B) % p256P

/-- An ECDSA signature (r, s) of a 32-byte digest under a public key (FIPS 186-4). -/
def ecdsaVerify (pubX pubY : Nat) (digest : List Byte) (r s : Nat) : Bool :=
  if r = 0 ∨ s = 0 ∨ p256N ≤ r ∨ p256N ≤ s ∨ !onCurve pubX pubY then false
  else
    let w := invMod p256N s
    let z := ofBe digest
    match ecAdd (ecMul 256 (z * w % p256N) (some p256G)) (ecMul 256 (r * w % p256N) (some (pubX, pubY))) with
    | none => false
    | some (x, _) => x % p256N == r

end Sys2Proof.Machine
end

