-- ==== Sys2Proof/Config.lean ====
section
/-!
DEFINITION. What the manual leaves open, as constants without a body (log entries 2 and 3): every value of this file is
free, so nothing can be proved about it but its type and, for the bounded draws, its bounds.
-/

namespace Sys2Proof

/-- The places where the manual leaves a value open. Each names what it stands for. -/
inductive FreeKind where
  /-- where in its block an event that carries no time of its own falls (stamps, live time reads) -/
  | timeInBlock
  /-- the natural frequency of a tracking loop (R37, R183) -/
  | loopFrequency
  /-- how fast the root slews to the crystal (R33) -/
  | slewStep
  /-- the PTP clock identity of a port, its priorities and data set, which no image field gives (R50, R52) -/
  | ptpIdentity | ptpDataSet
  /-- random draws: nonces, session handles -/
  | nonce | handle
  /-- a renderer quantity the manual bounds without fixing its last codes (R218) -/
  | render
  /-- a tap of a conversion filter, which the manual does not give (R176, R180), or a sample not yet presented -/
  | filter
  /-- a limiter gain while it reduces (R241 to R243) -/
  | limiter
  /-- the frequency-domain part of a convolution (R248) -/
  | convolution
  /-- a measured figure of a unit (busy cycles, temperatures) -/
  | measure
  /-- an amount of shaping, spacing or order the manual leaves to the implementation -/
  | shaping
  /-- a value an access returns where the manual defines none -/
  | readValue
  deriving DecidableEq, Repr

/-- The free values: one number for each kind and list of arguments, with no body. -/
opaque Config.free : FreeKind → List Int → Nat

/-- A free value of a closed range. -/
def Config.freeIn (k : FreeKind) (args : List Int) (lo hi : Int) : Int :=
  lo + ((Config.free k args % ((hi - lo + 1).toNat) : Nat) : Int)

/-- The natural frequency of the steward's loop in µrad/s. R37 gives a closed-loop bandwidth of 0.1 Hz at damping 1.0 and no
definition of the bandwidth: the value lies between that of a −3 dB bandwidth and that of a natural frequency of 0.1 Hz
(log entry 147). -/
def Config.loopOmega : Int := Config.freeIn .loopFrequency [] 253112 628319

/-- The natural frequency of a serial port's tracker in µrad/s: R183 gives a loop bandwidth of 1 Hz and no more (log entry 159). -/
def Config.trackOmega : Int := Config.freeIn .loopFrequency [1] 2531120 6283190

/-- Tap `i` of the exact filter of a ratio that spans `n` taps, in units of 2^-40: the filter has linear phase, so its taps are
symmetric; the manual gives no other coefficient (R176, log entry 9). -/
def Config.firTap (ratio : Int) (n i : Nat) : Int :=
  Config.freeIn .filter [ratio, ((min i (n - 1 - i) : Nat) : Int)] (-(2 ^ 41)) (2 ^ 41)

/-- Entry `i` of a converter's prototype of 64 times 1,024 phases for a design rate and an internal rate: 24-bit coefficients,
symmetric (R180, log entry 9). -/
def Config.converterTap (design internal i : Nat) : Int :=
  Config.freeIn .filter [0, (design : Int), (internal : Int), ((min i (65536 - i) : Nat) : Int)] (-(2 ^ 23)) (2 ^ 23 - 1)

/-- The device key of the security unit, 32 bytes as one number, before and after the RETURNED bit is burned (R422): fused
secrets. -/
opaque Config.deviceKey : Bool → Nat

/-- The measured latency that the fuses load into a PTP_CAL register, by the register's address (R54). -/
opaque Config.calibration : Nat → Nat

/-- The MAC and IPv4 addresses of the maker's OTP defaults and the mask beside them, by port (R378). -/
opaque Config.otpMac : Nat → Nat
opaque Config.otpIp : Nat → Nat
opaque Config.otpMask : Nat → Nat

/-- The three parts that share the die (R17, R18). -/
inductive Part where
  | ovx1051
  | ovx1041
  | ovx1031
  deriving DecidableEq, Repr

end Sys2Proof
end

