-- ==== Sys2Proof/Machine/Registers.lean ====
section
/-!
DEFINITION. The register map of the OVX-1051 as data: every register of the manual with its address, its indices and
their strides (R392, the register tables of every chapter), its reset value, and every field with its bits, access
class, reset, minimum role for a write and the range its values are clamped to (R394, R395, R396).
A register of a session slot is banked: its last index is the slot and its stride lies above the address space.
-/

namespace Sys2Proof.Machine

/-- The access classes of register fields (R395); `img` is read-only to hosts and set from the image. -/
inductive Acc where
  | rw | ro | wo | w1c | w1s | img
  deriving DecidableEq, Repr

/-- The lowest role that may write a field: any session slot, operator, integrator or maintenance (R394). -/
inductive RoleNeed where
  | z | o | i | m
  deriving DecidableEq, Repr

/-- What else the manual says of a register: it is an event register, it is guarded or in the security unit, it has one
copy per session slot, reading it latches others, its writes take effect by safe-load, its count follows SYS_CAPS,
it lies in a layout table, it is memory, or one register stands in every core's window. -/
inductive Attr where
  | evt | guard | slot | latch | safe | obj | out | core | ltab | mem | xpr | fir | shared
  deriving DecidableEq, Repr

/-- Where a register's reset word comes from: it is the same for all copies; it is 0x40_0000 in the copies whose last index is 0
(the identity coefficients); or it is fused with a measured value (R54). -/
inductive ResetKind where
  | plain | identity | fused
  deriving DecidableEq, Repr

/-- A register: its address with all indices 0, the count and stride of each index, its reset word (the nominal value where it is
fused), and where that comes from. -/
structure Reg where
  base : Nat
  dims : List (Nat × Nat) := []
  reset : Nat := 0
  kind : ResetKind := .plain
  deriving DecidableEq, Repr

/-- A field of a register. -/
structure Field where
  reg : Reg
  hi : Nat
  lo : Nat
  acc : Acc
  role : RoleNeed
  range : Option (Int × Int) := none
  deriving DecidableEq, Repr

/-- A register with its fields. -/
structure RegEntry where
  reg : Reg
  attrs : List Attr
  fields : List Field
  deriving DecidableEq, Repr

/-! ## SYS (R401, R427 to R457) -/

/-- SYS_ID -/
def R.SYS_ID : Reg := ⟨0, [], 206635008, .plain⟩
def F.SYS_ID_FAMILY : Field := ⟨R.SYS_ID, 31, 20, .ro, .o, none⟩
def F.SYS_ID_STEP : Field := ⟨R.SYS_ID, 19, 16, .ro, .o, none⟩
def F.SYS_ID_PART : Field := ⟨R.SYS_ID, 15, 0, .ro, .o, none⟩
/-- SYS_CAPS -/
def R.SYS_CAPS : Reg := ⟨4, [], 0, .plain⟩
def F.SYS_CAPS_OUT_LOG2 : Field := ⟨R.SYS_CAPS, 31, 28, .ro, .o, none⟩
def F.SYS_CAPS_OBJ_LOG2 : Field := ⟨R.SYS_CAPS, 27, 24, .ro, .o, none⟩
def F.SYS_CAPS_CORES_M1 : Field := ⟨R.SYS_CAPS, 20, 16, .ro, .o, none⟩
def F.SYS_CAPS_RED_SIZE : Field := ⟨R.SYS_CAPS, 15, 12, .ro, .o, none⟩
def F.SYS_CAPS_CAS_SIZE : Field := ⟨R.SYS_CAPS, 11, 8, .ro, .o, none⟩
def F.SYS_CAPS_CNV_SIZE : Field := ⟨R.SYS_CAPS, 7, 4, .ro, .o, none⟩
def F.SYS_CAPS_RED_PRES : Field := ⟨R.SYS_CAPS, 2, 2, .ro, .o, none⟩
def F.SYS_CAPS_CAS_PRES : Field := ⟨R.SYS_CAPS, 1, 1, .ro, .o, none⟩
def F.SYS_CAPS_CNV_PRES : Field := ⟨R.SYS_CAPS, 0, 0, .ro, .o, none⟩
/-- SYS_EVT -/
def R.SYS_EVT : Reg := ⟨8, [], 0, .plain⟩
def F.SYS_EVT_WAKE : Field := ⟨R.SYS_EVT, 3, 3, .w1c, .o, none⟩
def F.SYS_EVT_PWR_DONE : Field := ⟨R.SYS_EVT, 2, 2, .w1c, .o, none⟩
def F.SYS_EVT_PWR_REFUSED : Field := ⟨R.SYS_EVT, 1, 1, .w1c, .o, none⟩
def F.SYS_EVT_RESET : Field := ⟨R.SYS_EVT, 0, 0, .w1c, .o, none⟩
/-- SYS_EVTEN -/
def R.SYS_EVTEN : Reg := ⟨12, [], 0, .plain⟩
def F.SYS_EVTEN_WAKE : Field := ⟨R.SYS_EVTEN, 3, 3, .rw, .i, none⟩
def F.SYS_EVTEN_PWR_DONE : Field := ⟨R.SYS_EVTEN, 2, 2, .rw, .i, none⟩
def F.SYS_EVTEN_PWR_REFUSED : Field := ⟨R.SYS_EVTEN, 1, 1, .rw, .i, none⟩
def F.SYS_EVTEN_RESET : Field := ⟨R.SYS_EVTEN, 0, 0, .rw, .i, none⟩
/-- SYS_BOOTSTAT -/
def R.SYS_BOOTSTAT : Reg := ⟨16, [], 805306368, .plain⟩
def F.SYS_BOOTSTAT_STATE : Field := ⟨R.SYS_BOOTSTAT, 31, 30, .ro, .o, none⟩
def F.SYS_BOOTSTAT_SLOT : Field := ⟨R.SYS_BOOTSTAT, 29, 28, .ro, .o, none⟩
def F.SYS_BOOTSTAT_CAUSE_B : Field := ⟨R.SYS_BOOTSTAT, 15, 8, .ro, .o, none⟩
def F.SYS_BOOTSTAT_CAUSE_A : Field := ⟨R.SYS_BOOTSTAT, 7, 0, .ro, .o, none⟩
/-- SYS_BOOTDETAIL -/
def R.SYS_BOOTDETAIL : Reg := ⟨20, [], 4278190080, .plain⟩
def F.SYS_BOOTDETAIL_SECT : Field := ⟨R.SYS_BOOTDETAIL, 31, 24, .ro, .o, none⟩
def F.SYS_BOOTDETAIL_REC : Field := ⟨R.SYS_BOOTDETAIL, 23, 0, .ro, .o, none⟩
/-- SYS_STAT -/
def R.SYS_STAT : Reg := ⟨24, [], 0, .plain⟩
def F.SYS_STAT_BUSY : Field := ⟨R.SYS_STAT, 20, 20, .ro, .o, none⟩
def F.SYS_STAT_PWR : Field := ⟨R.SYS_STAT, 17, 16, .ro, .o, none⟩
def F.SYS_STAT_PWR_ERR : Field := ⟨R.SYS_STAT, 3, 0, .ro, .o, none⟩
/-- SYS_DRAMSIZE -/
def R.SYS_DRAMSIZE : Reg := ⟨28, [], 0, .plain⟩
def F.SYS_DRAMSIZE_MIB : Field := ⟨R.SYS_DRAMSIZE, 15, 0, .ro, .o, none⟩
/-- SYS_PWRCTRL -/
def R.SYS_PWRCTRL : Reg := ⟨32, [], 0, .plain⟩
def F.SYS_PWRCTRL_GO : Field := ⟨R.SYS_PWRCTRL, 31, 31, .w1s, .i, none⟩
def F.SYS_PWRCTRL_REQ : Field := ⟨R.SYS_PWRCTRL, 1, 0, .rw, .i, none⟩
/-- SYS_RSTCTRL -/
def R.SYS_RSTCTRL : Reg := ⟨36, [], 0, .plain⟩
def F.SYS_RSTCTRL_KEY : Field := ⟨R.SYS_RSTCTRL, 31, 16, .wo, .i, none⟩
def F.SYS_RSTCTRL_SOFT : Field := ⟨R.SYS_RSTCTRL, 0, 0, .w1s, .i, none⟩
/-- SYS_RSTCAUSE -/
def R.SYS_RSTCAUSE : Reg := ⟨40, [], 1, .plain⟩
def F.SYS_RSTCAUSE_FROM_OFF : Field := ⟨R.SYS_RSTCAUSE, 8, 8, .ro, .o, none⟩
def F.SYS_RSTCAUSE_CAUSE : Field := ⟨R.SYS_RSTCAUSE, 4, 0, .ro, .o, none⟩
/-- SYS_WAKE -/
def R.SYS_WAKE : Reg := ⟨44, [], 2147483648, .plain⟩
def F.SYS_WAKE_PIN_EN : Field := ⟨R.SYS_WAKE, 31, 31, .rw, .i, none⟩
def F.SYS_WAKE_PIN_POL : Field := ⟨R.SYS_WAKE, 30, 30, .rw, .i, none⟩
def F.SYS_WAKE_PAT_EN : Field := ⟨R.SYS_WAKE, 29, 29, .rw, .i, none⟩
def F.SYS_WAKE_TARGET : Field := ⟨R.SYS_WAKE, 0, 0, .rw, .i, none⟩
/-- SYS_TEMP -/
def R.SYS_TEMP : Reg := ⟨48, [], 0, .plain⟩
def F.SYS_TEMP_VALID : Field := ⟨R.SYS_TEMP, 31, 31, .ro, .o, none⟩
def F.SYS_TEMP_TEMP : Field := ⟨R.SYS_TEMP, 15, 0, .ro, .o, none⟩
/-- SYS_THERM -/
def R.SYS_THERM : Reg := ⟨52, [], 1986592768, .plain⟩
def F.SYS_THERM_TRIP : Field := ⟨R.SYS_THERM, 31, 24, .rw, .m, some (90, 120)⟩
def F.SYS_THERM_WARN : Field := ⟨R.SYS_THERM, 23, 16, .rw, .i, some (60, 115)⟩
def F.SYS_THERM_CRIT_SEEN : Field := ⟨R.SYS_THERM, 2, 2, .w1c, .o, none⟩
def F.SYS_THERM_THERMAL : Field := ⟨R.SYS_THERM, 1, 1, .ro, .o, none⟩
def F.SYS_THERM_TRIP_QUIET : Field := ⟨R.SYS_THERM, 0, 0, .rw, .i, none⟩
/-- SYS_SUPPLY -/
def R.SYS_SUPPLY : Reg := ⟨56, [], 0, .plain⟩
def F.SYS_SUPPLY_OUT : Field := ⟨R.SYS_SUPPLY, 8, 0, .ro, .o, none⟩
/-- SYS_HW_EVT -/
def R.SYS_HW_EVT : Reg := ⟨60, [], 0, .plain⟩
def F.SYS_HW_EVT_SUPPLY : Field := ⟨R.SYS_HW_EVT, 2, 2, .w1c, .o, none⟩
def F.SYS_HW_EVT_TRIP : Field := ⟨R.SYS_HW_EVT, 1, 1, .w1c, .o, none⟩
def F.SYS_HW_EVT_WARN : Field := ⟨R.SYS_HW_EVT, 0, 0, .w1c, .o, none⟩
/-- SYS_HW_EVTEN -/
def R.SYS_HW_EVTEN : Reg := ⟨64, [], 0, .plain⟩
def F.SYS_HW_EVTEN_SUPPLY : Field := ⟨R.SYS_HW_EVTEN, 2, 2, .rw, .i, none⟩
def F.SYS_HW_EVTEN_TRIP : Field := ⟨R.SYS_HW_EVTEN, 1, 1, .rw, .i, none⟩
def F.SYS_HW_EVTEN_WARN : Field := ⟨R.SYS_HW_EVTEN, 0, 0, .rw, .i, none⟩
/-- SYS_GPIO_OE -/
def R.SYS_GPIO_OE : Reg := ⟨80, [], 0, .plain⟩
def F.SYS_GPIO_OE_OE : Field := ⟨R.SYS_GPIO_OE, 15, 0, .rw, .i, none⟩
/-- SYS_GPIO_OUT -/
def R.SYS_GPIO_OUT : Reg := ⟨84, [], 0, .plain⟩
def F.SYS_GPIO_OUT_OUT : Field := ⟨R.SYS_GPIO_OUT, 15, 0, .rw, .i, none⟩
/-- SYS_GPIO_IN -/
def R.SYS_GPIO_IN : Reg := ⟨88, [], 0, .plain⟩
def F.SYS_GPIO_IN_IN : Field := ⟨R.SYS_GPIO_IN, 15, 0, .ro, .o, none⟩
/-- SYS_CNT_RESETS -/
def R.SYS_CNT_RESETS : Reg := ⟨128, [], 0, .plain⟩
def F.SYS_CNT_RESETS_V : Field := ⟨R.SYS_CNT_RESETS, 31, 0, .ro, .o, none⟩
/-- SYS_CNT_WAKES -/
def R.SYS_CNT_WAKES : Reg := ⟨132, [], 0, .plain⟩
def F.SYS_CNT_WAKES_V : Field := ⟨R.SYS_CNT_WAKES, 31, 0, .ro, .o, none⟩

/-- The SYS registers. -/
def regTableSys : List RegEntry :=
  [⟨R.SYS_ID, [], [F.SYS_ID_FAMILY, F.SYS_ID_STEP, F.SYS_ID_PART]⟩,
   ⟨R.SYS_CAPS, [], [F.SYS_CAPS_OUT_LOG2, F.SYS_CAPS_OBJ_LOG2, F.SYS_CAPS_CORES_M1, F.SYS_CAPS_RED_SIZE, F.SYS_CAPS_CAS_SIZE, F.SYS_CAPS_CNV_SIZE, F.SYS_CAPS_RED_PRES, F.SYS_CAPS_CAS_PRES, F.SYS_CAPS_CNV_PRES]⟩,
   ⟨R.SYS_EVT, [.evt], [F.SYS_EVT_WAKE, F.SYS_EVT_PWR_DONE, F.SYS_EVT_PWR_REFUSED, F.SYS_EVT_RESET]⟩,
   ⟨R.SYS_EVTEN, [], [F.SYS_EVTEN_WAKE, F.SYS_EVTEN_PWR_DONE, F.SYS_EVTEN_PWR_REFUSED, F.SYS_EVTEN_RESET]⟩,
   ⟨R.SYS_BOOTSTAT, [], [F.SYS_BOOTSTAT_STATE, F.SYS_BOOTSTAT_SLOT, F.SYS_BOOTSTAT_CAUSE_B, F.SYS_BOOTSTAT_CAUSE_A]⟩,
   ⟨R.SYS_BOOTDETAIL, [], [F.SYS_BOOTDETAIL_SECT, F.SYS_BOOTDETAIL_REC]⟩,
   ⟨R.SYS_STAT, [], [F.SYS_STAT_BUSY, F.SYS_STAT_PWR, F.SYS_STAT_PWR_ERR]⟩,
   ⟨R.SYS_DRAMSIZE, [], [F.SYS_DRAMSIZE_MIB]⟩,
   ⟨R.SYS_PWRCTRL, [], [F.SYS_PWRCTRL_GO, F.SYS_PWRCTRL_REQ]⟩,
   ⟨R.SYS_RSTCTRL, [], [F.SYS_RSTCTRL_KEY, F.SYS_RSTCTRL_SOFT]⟩,
   ⟨R.SYS_RSTCAUSE, [], [F.SYS_RSTCAUSE_FROM_OFF, F.SYS_RSTCAUSE_CAUSE]⟩,
   ⟨R.SYS_WAKE, [], [F.SYS_WAKE_PIN_EN, F.SYS_WAKE_PIN_POL, F.SYS_WAKE_PAT_EN, F.SYS_WAKE_TARGET]⟩,
   ⟨R.SYS_TEMP, [], [F.SYS_TEMP_VALID, F.SYS_TEMP_TEMP]⟩,
   ⟨R.SYS_THERM, [], [F.SYS_THERM_TRIP, F.SYS_THERM_WARN, F.SYS_THERM_CRIT_SEEN, F.SYS_THERM_THERMAL, F.SYS_THERM_TRIP_QUIET]⟩,
   ⟨R.SYS_SUPPLY, [], [F.SYS_SUPPLY_OUT]⟩,
   ⟨R.SYS_HW_EVT, [.evt], [F.SYS_HW_EVT_SUPPLY, F.SYS_HW_EVT_TRIP, F.SYS_HW_EVT_WARN]⟩,
   ⟨R.SYS_HW_EVTEN, [], [F.SYS_HW_EVTEN_SUPPLY, F.SYS_HW_EVTEN_TRIP, F.SYS_HW_EVTEN_WARN]⟩,
   ⟨R.SYS_GPIO_OE, [], [F.SYS_GPIO_OE_OE]⟩,
   ⟨R.SYS_GPIO_OUT, [], [F.SYS_GPIO_OUT_OUT]⟩,
   ⟨R.SYS_GPIO_IN, [], [F.SYS_GPIO_IN_IN]⟩,
   ⟨R.SYS_CNT_RESETS, [], [F.SYS_CNT_RESETS_V]⟩,
   ⟨R.SYS_CNT_WAKES, [], [F.SYS_CNT_WAKES_V]⟩]

/-! ## CLK (R29 to R62) -/

/-- CLK_CTRL -/
def R.CLK_CTRL : Reg := ⟨4096, [], 0, .plain⟩
def F.CLK_CTRL_GRID_ALIGN : Field := ⟨R.CLK_CTRL, 5, 5, .img, .i, none⟩
def F.CLK_CTRL_RATE : Field := ⟨R.CLK_CTRL, 4, 4, .img, .i, none⟩
def F.CLK_CTRL_FORCE_SEL : Field := ⟨R.CLK_CTRL, 3, 1, .rw, .i, none⟩
def F.CLK_CTRL_FORCE_EN : Field := ⟨R.CLK_CTRL, 0, 0, .rw, .i, none⟩
/-- CLK_STAT -/
def R.CLK_STAT : Reg := ⟨4100, [], 112, .plain⟩
def F.CLK_STAT_GRIDDED : Field := ⟨R.CLK_STAT, 10, 10, .ro, .o, none⟩
def F.CLK_STAT_DISAGREE : Field := ⟨R.CLK_STAT, 9, 9, .ro, .o, none⟩
def F.CLK_STAT_HO_OOS : Field := ⟨R.CLK_STAT, 8, 8, .ro, .o, none⟩
def F.CLK_STAT_SEL : Field := ⟨R.CLK_STAT, 6, 4, .ro, .o, none⟩
def F.CLK_STAT_STATE : Field := ⟨R.CLK_STAT, 2, 0, .ro, .o, none⟩
/-- CLK_EVT -/
def R.CLK_EVT : Reg := ⟨4104, [], 0, .plain⟩
def F.CLK_EVT_SRC_INVALID : Field := ⟨R.CLK_EVT, 13, 13, .w1c, .o, none⟩
def F.CLK_EVT_PULL_ABANDON : Field := ⟨R.CLK_EVT, 12, 12, .w1c, .o, none⟩
def F.CLK_EVT_FORCE_DROP : Field := ⟨R.CLK_EVT, 11, 11, .w1c, .o, none⟩
def F.CLK_EVT_HO_EXIT : Field := ⟨R.CLK_EVT, 10, 10, .w1c, .o, none⟩
def F.CLK_EVT_HO_OOS : Field := ⟨R.CLK_EVT, 9, 9, .w1c, .o, none⟩
def F.CLK_EVT_HO_ENTER : Field := ⟨R.CLK_EVT, 8, 8, .w1c, .o, none⟩
def F.CLK_EVT_DISAGREE : Field := ⟨R.CLK_EVT, 7, 7, .w1c, .o, none⟩
def F.CLK_EVT_RANGE : Field := ⟨R.CLK_EVT, 6, 6, .w1c, .o, none⟩
def F.CLK_EVT_RATE_MISMATCH : Field := ⟨R.CLK_EVT, 5, 5, .w1c, .o, none⟩
def F.CLK_EVT_REF_GLITCH : Field := ⟨R.CLK_EVT, 4, 4, .w1c, .o, none⟩
def F.CLK_EVT_REF_LOST : Field := ⟨R.CLK_EVT, 3, 3, .w1c, .o, none⟩
def F.CLK_EVT_UNLOCK : Field := ⟨R.CLK_EVT, 2, 2, .w1c, .o, none⟩
def F.CLK_EVT_LOCK : Field := ⟨R.CLK_EVT, 1, 1, .w1c, .o, none⟩
def F.CLK_EVT_SWITCH : Field := ⟨R.CLK_EVT, 0, 0, .w1c, .o, none⟩
/-- CLK_EVTEN -/
def R.CLK_EVTEN : Reg := ⟨4108, [], 0, .plain⟩
def F.CLK_EVTEN_SRC_INVALID : Field := ⟨R.CLK_EVTEN, 13, 13, .rw, .i, none⟩
def F.CLK_EVTEN_PULL_ABANDON : Field := ⟨R.CLK_EVTEN, 12, 12, .rw, .i, none⟩
def F.CLK_EVTEN_FORCE_DROP : Field := ⟨R.CLK_EVTEN, 11, 11, .rw, .i, none⟩
def F.CLK_EVTEN_HO_EXIT : Field := ⟨R.CLK_EVTEN, 10, 10, .rw, .i, none⟩
def F.CLK_EVTEN_HO_OOS : Field := ⟨R.CLK_EVTEN, 9, 9, .rw, .i, none⟩
def F.CLK_EVTEN_HO_ENTER : Field := ⟨R.CLK_EVTEN, 8, 8, .rw, .i, none⟩
def F.CLK_EVTEN_DISAGREE : Field := ⟨R.CLK_EVTEN, 7, 7, .rw, .i, none⟩
def F.CLK_EVTEN_RANGE : Field := ⟨R.CLK_EVTEN, 6, 6, .rw, .i, none⟩
def F.CLK_EVTEN_RATE_MISMATCH : Field := ⟨R.CLK_EVTEN, 5, 5, .rw, .i, none⟩
def F.CLK_EVTEN_REF_GLITCH : Field := ⟨R.CLK_EVTEN, 4, 4, .rw, .i, none⟩
def F.CLK_EVTEN_REF_LOST : Field := ⟨R.CLK_EVTEN, 3, 3, .rw, .i, none⟩
def F.CLK_EVTEN_UNLOCK : Field := ⟨R.CLK_EVTEN, 2, 2, .rw, .i, none⟩
def F.CLK_EVTEN_LOCK : Field := ⟨R.CLK_EVTEN, 1, 1, .rw, .i, none⟩
def F.CLK_EVTEN_SWITCH : Field := ⟨R.CLK_EVTEN, 0, 0, .rw, .i, none⟩
/-- CLK_PULL -/
def R.CLK_PULL : Reg := ⟨4112, [], 6553650, .plain⟩
def F.CLK_PULL_LOCKWIN : Field := ⟨R.CLK_PULL, 25, 16, .rw, .i, some (10, 1000)⟩
def F.CLK_PULL_SLOPE : Field := ⟨R.CLK_PULL, 9, 0, .rw, .i, some (1, 500)⟩
/-- CLK_QUAL -/
def R.CLK_QUAL : Reg := ⟨4116, [], 26234900, .plain⟩
def F.CLK_QUAL_RANGE : Field := ⟨R.CLK_QUAL, 25, 18, .rw, .i, some (10, 200)⟩
def F.CLK_QUAL_AGREE : Field := ⟨R.CLK_QUAL, 17, 10, .rw, .i, some (1, 200)⟩
def F.CLK_QUAL_WTR : Field := ⟨R.CLK_QUAL, 9, 0, .rw, .i, some (0, 600)⟩
/-- CLK_HO_CFG -/
def R.CLK_HO_CFG : Reg := ⟨4120, [], 655361000, .plain⟩
def F.CLK_HO_CFG_TLIM : Field := ⟨R.CLK_HO_CFG, 31, 16, .rw, .i, some (100, 65535)⟩
def F.CLK_HO_CFG_FLIM : Field := ⟨R.CLK_HO_CFG, 9, 0, .rw, .i, some (10, 1000)⟩
/-- CLK_HO_DRIFT -/
def R.CLK_HO_DRIFT : Reg := ⟨4124, [], 100, .plain⟩
def F.CLK_HO_DRIFT_DRIFT : Field := ⟨R.CLK_HO_DRIFT, 15, 0, .rw, .i, some (1, 65535)⟩
/-- CLK_HO_EST -/
def R.CLK_HO_EST : Reg := ⟨4128, [], 0, .plain⟩
def F.CLK_HO_EST_U0 : Field := ⟨R.CLK_HO_EST, 15, 0, .ro, .o, none⟩
/-- CLK_HO_REMAIN -/
def R.CLK_HO_REMAIN : Reg := ⟨4132, [], 4294967295, .plain⟩
def F.CLK_HO_REMAIN_REMAIN : Field := ⟨R.CLK_HO_REMAIN, 31, 0, .ro, .o, none⟩
/-- CLK_PHASE -/
def R.CLK_PHASE : Reg := ⟨4136, [], 0, .plain⟩
def F.CLK_PHASE_ERR : Field := ⟨R.CLK_PHASE, 31, 0, .ro, .o, none⟩
/-- CLK_FREQ -/
def R.CLK_FREQ : Reg := ⟨4140, [], 0, .plain⟩
def F.CLK_FREQ_OFS : Field := ⟨R.CLK_FREQ, 31, 0, .ro, .o, none⟩
/-- CLK_BLOCK_LO -/
def R.CLK_BLOCK_LO : Reg := ⟨4144, [], 0, .plain⟩
def F.CLK_BLOCK_LO_V : Field := ⟨R.CLK_BLOCK_LO, 31, 0, .ro, .o, none⟩
/-- CLK_BLOCK_HI -/
def R.CLK_BLOCK_HI : Reg := ⟨4148, [], 0, .plain⟩
def F.CLK_BLOCK_HI_V : Field := ⟨R.CLK_BLOCK_HI, 31, 0, .ro, .o, none⟩
/-- CLK_EPOCH_NS -/
def R.CLK_EPOCH_NS : Reg := ⟨4152, [], 0, .plain⟩
def F.CLK_EPOCH_NS_V : Field := ⟨R.CLK_EPOCH_NS, 31, 0, .ro, .o, none⟩
/-- CLK_EPOCH_SL -/
def R.CLK_EPOCH_SL : Reg := ⟨4156, [], 0, .plain⟩
def F.CLK_EPOCH_SL_V : Field := ⟨R.CLK_EPOCH_SL, 31, 0, .ro, .o, none⟩
/-- CLK_EPOCH_SH -/
def R.CLK_EPOCH_SH : Reg := ⟨4160, [], 0, .plain⟩
def F.CLK_EPOCH_SH_V : Field := ⟨R.CLK_EPOCH_SH, 15, 0, .ro, .o, none⟩
/-- CLK_CNT_SWITCH -/
def R.CLK_CNT_SWITCH : Reg := ⟨4164, [], 0, .plain⟩
def F.CLK_CNT_SWITCH_V : Field := ⟨R.CLK_CNT_SWITCH, 31, 0, .ro, .o, none⟩
/-- CLK_CNT_HO -/
def R.CLK_CNT_HO : Reg := ⟨4168, [], 0, .plain⟩
def F.CLK_CNT_HO_V : Field := ⟨R.CLK_CNT_HO, 31, 0, .ro, .o, none⟩
/-- CLK_CNT_PULLAB -/
def R.CLK_CNT_PULLAB : Reg := ⟨4172, [], 0, .plain⟩
def F.CLK_CNT_PULLAB_V : Field := ⟨R.CLK_CNT_PULLAB, 31, 0, .ro, .o, none⟩
/-- CLK_OUTCFG -/
def R.CLK_OUTCFG : Reg := ⟨4176, [], 0, .plain⟩
def F.CLK_OUTCFG_PPS_EN : Field := ⟨R.CLK_OUTCFG, 2, 2, .rw, .i, none⟩
def F.CLK_OUTCFG_WCLK_MODE : Field := ⟨R.CLK_OUTCFG, 1, 0, .rw, .i, none⟩
/-- CLK_REFn_CFG -/
def R.CLK_REFn_CFG : Reg := ⟨4352, [(6, 32)], 0, .plain⟩
def F.CLK_REFn_CFG_SAP_PORT : Field := ⟨R.CLK_REFn_CFG, 12, 8, .rw, .i, none⟩
def F.CLK_REFn_CFG_NOM : Field := ⟨R.CLK_REFn_CFG, 6, 4, .rw, .i, none⟩
def F.CLK_REFn_CFG_RANK : Field := ⟨R.CLK_REFn_CFG, 3, 1, .rw, .i, none⟩
def F.CLK_REFn_CFG_EN : Field := ⟨R.CLK_REFn_CFG, 0, 0, .rw, .i, none⟩
/-- CLK_REFn_STAT -/
def R.CLK_REFn_STAT : Reg := ⟨4356, [(6, 32)], 0, .plain⟩
def F.CLK_REFn_STAT_WTR_LEFT : Field := ⟨R.CLK_REFn_STAT, 31, 16, .ro, .o, none⟩
def F.CLK_REFn_STAT_REASON : Field := ⟨R.CLK_REFn_STAT, 6, 4, .ro, .o, none⟩
def F.CLK_REFn_STAT_QUAL : Field := ⟨R.CLK_REFn_STAT, 2, 0, .ro, .o, none⟩
/-- CLK_REFn_RATE -/
def R.CLK_REFn_RATE : Reg := ⟨4360, [(6, 32)], 0, .plain⟩
def F.CLK_REFn_RATE_RATE : Field := ⟨R.CLK_REFn_RATE, 31, 0, .ro, .o, none⟩
/-- CLK_REFn_CNT -/
def R.CLK_REFn_CNT : Reg := ⟨4364, [(6, 32)], 0, .plain⟩
def F.CLK_REFn_CNT_GLITCH : Field := ⟨R.CLK_REFn_CNT, 31, 16, .ro, .o, none⟩
def F.CLK_REFn_CNT_LOSS : Field := ⟨R.CLK_REFn_CNT, 15, 0, .ro, .o, none⟩

/-- The CLK registers. -/
def regTableClk : List RegEntry :=
  [⟨R.CLK_CTRL, [], [F.CLK_CTRL_GRID_ALIGN, F.CLK_CTRL_RATE, F.CLK_CTRL_FORCE_SEL, F.CLK_CTRL_FORCE_EN]⟩,
   ⟨R.CLK_STAT, [], [F.CLK_STAT_GRIDDED, F.CLK_STAT_DISAGREE, F.CLK_STAT_HO_OOS, F.CLK_STAT_SEL, F.CLK_STAT_STATE]⟩,
   ⟨R.CLK_EVT, [.evt], [F.CLK_EVT_SRC_INVALID, F.CLK_EVT_PULL_ABANDON, F.CLK_EVT_FORCE_DROP, F.CLK_EVT_HO_EXIT, F.CLK_EVT_HO_OOS, F.CLK_EVT_HO_ENTER, F.CLK_EVT_DISAGREE, F.CLK_EVT_RANGE, F.CLK_EVT_RATE_MISMATCH, F.CLK_EVT_REF_GLITCH, F.CLK_EVT_REF_LOST, F.CLK_EVT_UNLOCK, F.CLK_EVT_LOCK, F.CLK_EVT_SWITCH]⟩,
   ⟨R.CLK_EVTEN, [], [F.CLK_EVTEN_SRC_INVALID, F.CLK_EVTEN_PULL_ABANDON, F.CLK_EVTEN_FORCE_DROP, F.CLK_EVTEN_HO_EXIT, F.CLK_EVTEN_HO_OOS, F.CLK_EVTEN_HO_ENTER, F.CLK_EVTEN_DISAGREE, F.CLK_EVTEN_RANGE, F.CLK_EVTEN_RATE_MISMATCH, F.CLK_EVTEN_REF_GLITCH, F.CLK_EVTEN_REF_LOST, F.CLK_EVTEN_UNLOCK, F.CLK_EVTEN_LOCK, F.CLK_EVTEN_SWITCH]⟩,
   ⟨R.CLK_PULL, [], [F.CLK_PULL_LOCKWIN, F.CLK_PULL_SLOPE]⟩,
   ⟨R.CLK_QUAL, [], [F.CLK_QUAL_RANGE, F.CLK_QUAL_AGREE, F.CLK_QUAL_WTR]⟩,
   ⟨R.CLK_HO_CFG, [], [F.CLK_HO_CFG_TLIM, F.CLK_HO_CFG_FLIM]⟩,
   ⟨R.CLK_HO_DRIFT, [], [F.CLK_HO_DRIFT_DRIFT]⟩,
   ⟨R.CLK_HO_EST, [], [F.CLK_HO_EST_U0]⟩,
   ⟨R.CLK_HO_REMAIN, [], [F.CLK_HO_REMAIN_REMAIN]⟩,
   ⟨R.CLK_PHASE, [], [F.CLK_PHASE_ERR]⟩,
   ⟨R.CLK_FREQ, [], [F.CLK_FREQ_OFS]⟩,
   ⟨R.CLK_BLOCK_LO, [.latch], [F.CLK_BLOCK_LO_V]⟩,
   ⟨R.CLK_BLOCK_HI, [], [F.CLK_BLOCK_HI_V]⟩,
   ⟨R.CLK_EPOCH_NS, [.latch], [F.CLK_EPOCH_NS_V]⟩,
   ⟨R.CLK_EPOCH_SL, [], [F.CLK_EPOCH_SL_V]⟩,
   ⟨R.CLK_EPOCH_SH, [], [F.CLK_EPOCH_SH_V]⟩,
   ⟨R.CLK_CNT_SWITCH, [], [F.CLK_CNT_SWITCH_V]⟩,
   ⟨R.CLK_CNT_HO, [], [F.CLK_CNT_HO_V]⟩,
   ⟨R.CLK_CNT_PULLAB, [], [F.CLK_CNT_PULLAB_V]⟩,
   ⟨R.CLK_OUTCFG, [], [F.CLK_OUTCFG_PPS_EN, F.CLK_OUTCFG_WCLK_MODE]⟩,
   ⟨R.CLK_REFn_CFG, [], [F.CLK_REFn_CFG_SAP_PORT, F.CLK_REFn_CFG_NOM, F.CLK_REFn_CFG_RANK, F.CLK_REFn_CFG_EN]⟩,
   ⟨R.CLK_REFn_STAT, [], [F.CLK_REFn_STAT_WTR_LEFT, F.CLK_REFn_STAT_REASON, F.CLK_REFn_STAT_QUAL]⟩,
   ⟨R.CLK_REFn_RATE, [], [F.CLK_REFn_RATE_RATE]⟩,
   ⟨R.CLK_REFn_CNT, [], [F.CLK_REFn_CNT_GLITCH, F.CLK_REFn_CNT_LOSS]⟩]

/-! ## SEC (R403 to R423) -/

/-- SEC_STAT -/
def R.SEC_STAT : Reg := ⟨8192, [], 0, .plain⟩
def F.SEC_STAT_LC : Field := ⟨R.SEC_STAT, 31, 28, .ro, .o, none⟩
def F.SEC_STAT_UNLOCKS : Field := ⟨R.SEC_STAT, 20, 16, .ro, .o, none⟩
def F.SEC_STAT_SESSIONS : Field := ⟨R.SEC_STAT, 15, 8, .ro, .o, none⟩
def F.SEC_STAT_INST : Field := ⟨R.SEC_STAT, 3, 2, .ro, .i, none⟩
def F.SEC_STAT_OPER : Field := ⟨R.SEC_STAT, 1, 0, .ro, .i, none⟩
/-- SEC_EVT -/
def R.SEC_EVT : Reg := ⟨8200, [], 0, .plain⟩
def F.SEC_EVT_KEY_LOADED : Field := ⟨R.SEC_EVT, 3, 3, .w1c, .o, none⟩
def F.SEC_EVT_CLOSE : Field := ⟨R.SEC_EVT, 2, 2, .w1c, .o, none⟩
def F.SEC_EVT_OPEN_FAIL : Field := ⟨R.SEC_EVT, 1, 1, .w1c, .o, none⟩
def F.SEC_EVT_OPEN : Field := ⟨R.SEC_EVT, 0, 0, .w1c, .o, none⟩
/-- SEC_EVTEN -/
def R.SEC_EVTEN : Reg := ⟨8204, [], 0, .plain⟩
def F.SEC_EVTEN_KEY_LOADED : Field := ⟨R.SEC_EVTEN, 3, 3, .rw, .i, none⟩
def F.SEC_EVTEN_CLOSE : Field := ⟨R.SEC_EVTEN, 2, 2, .rw, .i, none⟩
def F.SEC_EVTEN_OPEN_FAIL : Field := ⟨R.SEC_EVTEN, 1, 1, .rw, .i, none⟩
def F.SEC_EVTEN_OPEN : Field := ⟨R.SEC_EVTEN, 0, 0, .rw, .i, none⟩
/-- SEC_OPEN_CTRL -/
def R.SEC_OPEN_CTRL : Reg := ⟨8448, [(8, 1099511627776)], 0, .plain⟩
def F.SEC_OPEN_CTRL_REQ : Field := ⟨R.SEC_OPEN_CTRL, 31, 31, .w1s, .z, none⟩
def F.SEC_OPEN_CTRL_PROVE : Field := ⟨R.SEC_OPEN_CTRL, 30, 30, .w1s, .z, none⟩
def F.SEC_OPEN_CTRL_CLOSE : Field := ⟨R.SEC_OPEN_CTRL, 29, 29, .w1s, .o, none⟩
def F.SEC_OPEN_CTRL_UNLOCK : Field := ⟨R.SEC_OPEN_CTRL, 28, 28, .rw, .z, none⟩
def F.SEC_OPEN_CTRL_ROLE : Field := ⟨R.SEC_OPEN_CTRL, 25, 24, .rw, .z, none⟩
/-- SEC_OPEN_STAT -/
def R.SEC_OPEN_STAT : Reg := ⟨8452, [(8, 1099511627776)], 0, .plain⟩
def F.SEC_OPEN_STAT_STATE : Field := ⟨R.SEC_OPEN_STAT, 31, 30, .ro, .z, none⟩
def F.SEC_OPEN_STAT_IFACE : Field := ⟨R.SEC_OPEN_STAT, 29, 29, .ro, .z, none⟩
def F.SEC_OPEN_STAT_PEND : Field := ⟨R.SEC_OPEN_STAT, 26, 26, .ro, .z, none⟩
def F.SEC_OPEN_STAT_ROLE : Field := ⟨R.SEC_OPEN_STAT, 25, 24, .ro, .z, none⟩
def F.SEC_OPEN_STAT_ERR : Field := ⟨R.SEC_OPEN_STAT, 3, 0, .ro, .z, none⟩
/-- SEC_OPEN_HANDLE -/
def R.SEC_OPEN_HANDLE : Reg := ⟨8456, [(8, 1099511627776)], 0, .plain⟩
def F.SEC_OPEN_HANDLE_V : Field := ⟨R.SEC_OPEN_HANDLE, 31, 0, .ro, .z, none⟩
/-- SEC_OPEN_DNONCEi -/
def R.SEC_OPEN_DNONCEi : Reg := ⟨8464, [(4, 4), (8, 1099511627776)], 0, .plain⟩
def F.SEC_OPEN_DNONCEi_V : Field := ⟨R.SEC_OPEN_DNONCEi, 31, 0, .ro, .z, none⟩
/-- SEC_OPEN_CNONCEi -/
def R.SEC_OPEN_CNONCEi : Reg := ⟨8480, [(4, 4), (8, 1099511627776)], 0, .plain⟩
def F.SEC_OPEN_CNONCEi_V : Field := ⟨R.SEC_OPEN_CNONCEi, 31, 0, .rw, .z, none⟩
/-- SEC_OPEN_MACi -/
def R.SEC_OPEN_MACi : Reg := ⟨8496, [(8, 4), (8, 1099511627776)], 0, .plain⟩
def F.SEC_OPEN_MACi_V : Field := ⟨R.SEC_OPEN_MACi, 31, 0, .rw, .z, none⟩
/-- SEC_OPEN_PROOFi -/
def R.SEC_OPEN_PROOFi : Reg := ⟨8528, [(8, 4), (8, 1099511627776)], 0, .plain⟩
def F.SEC_OPEN_PROOFi_V : Field := ⟨R.SEC_OPEN_PROOFi, 31, 0, .ro, .z, none⟩
/-- SEC_KLOAD_CTRL -/
def R.SEC_KLOAD_CTRL : Reg := ⟨8704, [], 0, .plain⟩
def F.SEC_KLOAD_CTRL_GO : Field := ⟨R.SEC_KLOAD_CTRL, 31, 31, .w1s, .i, none⟩
def F.SEC_KLOAD_CTRL_PERSIST : Field := ⟨R.SEC_KLOAD_CTRL, 30, 30, .rw, .i, none⟩
def F.SEC_KLOAD_CTRL_ROLE : Field := ⟨R.SEC_KLOAD_CTRL, 9, 8, .rw, .i, none⟩
def F.SEC_KLOAD_CTRL_SLOT : Field := ⟨R.SEC_KLOAD_CTRL, 0, 0, .rw, .i, none⟩
/-- SEC_KLOAD_STAT -/
def R.SEC_KLOAD_STAT : Reg := ⟨8708, [], 0, .plain⟩
def F.SEC_KLOAD_STAT_ERR : Field := ⟨R.SEC_KLOAD_STAT, 3, 0, .ro, .i, none⟩
/-- SEC_KLOAD_Wi -/
def R.SEC_KLOAD_Wi : Reg := ⟨8720, [(10, 4)], 0, .plain⟩
def F.SEC_KLOAD_Wi_V : Field := ⟨R.SEC_KLOAD_Wi, 31, 0, .wo, .i, none⟩
/-- SEC_LC_CTRL -/
def R.SEC_LC_CTRL : Reg := ⟨8960, [], 0, .plain⟩
def F.SEC_LC_CTRL_GO : Field := ⟨R.SEC_LC_CTRL, 31, 31, .w1s, .m, none⟩
def F.SEC_LC_CTRL_TARGET : Field := ⟨R.SEC_LC_CTRL, 3, 0, .rw, .m, none⟩
/-- SEC_LC_CONFIRM -/
def R.SEC_LC_CONFIRM : Reg := ⟨8964, [], 0, .plain⟩
def F.SEC_LC_CONFIRM_V : Field := ⟨R.SEC_LC_CONFIRM, 31, 0, .wo, .m, none⟩
/-- SEC_LC_STAT -/
def R.SEC_LC_STAT : Reg := ⟨8968, [], 0, .plain⟩
def F.SEC_LC_STAT_ERR : Field := ⟨R.SEC_LC_STAT, 0, 0, .ro, .m, none⟩
/-- SEC_PROV_MKEYi -/
def R.SEC_PROV_MKEYi : Reg := ⟨9216, [(8, 4)], 0, .plain⟩
def F.SEC_PROV_MKEYi_V : Field := ⟨R.SEC_PROV_MKEYi, 31, 0, .wo, .m, none⟩
/-- SEC_PROV_KHASHk_i -/
def R.SEC_PROV_KHASHk_i : Reg := ⟨9248, [(4, 32), (8, 4)], 0, .plain⟩
def F.SEC_PROV_KHASHk_i_V : Field := ⟨R.SEC_PROV_KHASHk_i, 31, 0, .wo, .m, none⟩
/-- SEC_PROV_REVOKE -/
def R.SEC_PROV_REVOKE : Reg := ⟨9376, [], 0, .plain⟩
def F.SEC_PROV_REVOKE_KEY : Field := ⟨R.SEC_PROV_REVOKE, 3, 0, .w1s, .m, none⟩

/-- The SEC registers. -/
def regTableSec : List RegEntry :=
  [⟨R.SEC_STAT, [.guard], [F.SEC_STAT_LC, F.SEC_STAT_UNLOCKS, F.SEC_STAT_SESSIONS, F.SEC_STAT_INST, F.SEC_STAT_OPER]⟩,
   ⟨R.SEC_EVT, [.evt, .guard], [F.SEC_EVT_KEY_LOADED, F.SEC_EVT_CLOSE, F.SEC_EVT_OPEN_FAIL, F.SEC_EVT_OPEN]⟩,
   ⟨R.SEC_EVTEN, [.guard], [F.SEC_EVTEN_KEY_LOADED, F.SEC_EVTEN_CLOSE, F.SEC_EVTEN_OPEN_FAIL, F.SEC_EVTEN_OPEN]⟩,
   ⟨R.SEC_OPEN_CTRL, [.guard, .slot], [F.SEC_OPEN_CTRL_REQ, F.SEC_OPEN_CTRL_PROVE, F.SEC_OPEN_CTRL_CLOSE, F.SEC_OPEN_CTRL_UNLOCK, F.SEC_OPEN_CTRL_ROLE]⟩,
   ⟨R.SEC_OPEN_STAT, [.guard, .slot], [F.SEC_OPEN_STAT_STATE, F.SEC_OPEN_STAT_IFACE, F.SEC_OPEN_STAT_PEND, F.SEC_OPEN_STAT_ROLE, F.SEC_OPEN_STAT_ERR]⟩,
   ⟨R.SEC_OPEN_HANDLE, [.guard, .slot], [F.SEC_OPEN_HANDLE_V]⟩,
   ⟨R.SEC_OPEN_DNONCEi, [.guard, .slot], [F.SEC_OPEN_DNONCEi_V]⟩,
   ⟨R.SEC_OPEN_CNONCEi, [.guard, .slot], [F.SEC_OPEN_CNONCEi_V]⟩,
   ⟨R.SEC_OPEN_MACi, [.guard, .slot], [F.SEC_OPEN_MACi_V]⟩,
   ⟨R.SEC_OPEN_PROOFi, [.guard, .slot], [F.SEC_OPEN_PROOFi_V]⟩,
   ⟨R.SEC_KLOAD_CTRL, [.guard], [F.SEC_KLOAD_CTRL_GO, F.SEC_KLOAD_CTRL_PERSIST, F.SEC_KLOAD_CTRL_ROLE, F.SEC_KLOAD_CTRL_SLOT]⟩,
   ⟨R.SEC_KLOAD_STAT, [.guard], [F.SEC_KLOAD_STAT_ERR]⟩,
   ⟨R.SEC_KLOAD_Wi, [.guard], [F.SEC_KLOAD_Wi_V]⟩,
   ⟨R.SEC_LC_CTRL, [.guard], [F.SEC_LC_CTRL_GO, F.SEC_LC_CTRL_TARGET]⟩,
   ⟨R.SEC_LC_CONFIRM, [.guard], [F.SEC_LC_CONFIRM_V]⟩,
   ⟨R.SEC_LC_STAT, [.guard], [F.SEC_LC_STAT_ERR]⟩,
   ⟨R.SEC_PROV_MKEYi, [.guard], [F.SEC_PROV_MKEYi_V]⟩,
   ⟨R.SEC_PROV_KHASHk_i, [.guard], [F.SEC_PROV_KHASHk_i_V]⟩,
   ⟨R.SEC_PROV_REVOKE, [.guard], [F.SEC_PROV_REVOKE_KEY]⟩]

/-! ## TXN (R411 to R418) -/

/-- TXN_CTRL -/
def R.TXN_CTRL : Reg := ⟨12288, [(8, 1099511627776)], 0, .plain⟩
def F.TXN_CTRL_BEGIN : Field := ⟨R.TXN_CTRL, 31, 31, .w1s, .o, none⟩
def F.TXN_CTRL_COMMIT : Field := ⟨R.TXN_CTRL, 30, 30, .w1s, .o, none⟩
def F.TXN_CTRL_ROLLBACK : Field := ⟨R.TXN_CTRL, 29, 29, .w1s, .o, none⟩
def F.TXN_CTRL_PERSIST : Field := ⟨R.TXN_CTRL, 28, 28, .rw, .o, none⟩
/-- TXN_STAT -/
def R.TXN_STAT : Reg := ⟨12292, [(8, 1099511627776)], 0, .plain⟩
def F.TXN_STAT_STATE : Field := ⟨R.TXN_STAT, 31, 29, .ro, .o, none⟩
def F.TXN_STAT_RESULT : Field := ⟨R.TXN_STAT, 27, 24, .ro, .o, none⟩
def F.TXN_STAT_ENTRIES : Field := ⟨R.TXN_STAT, 12, 0, .ro, .o, none⟩
/-- TXN_DETAIL -/
def R.TXN_DETAIL : Reg := ⟨12296, [(8, 1099511627776)], 0, .plain⟩
def F.TXN_DETAIL_V : Field := ⟨R.TXN_DETAIL, 31, 0, .ro, .o, none⟩
/-- TXN_CBLOCK_LO -/
def R.TXN_CBLOCK_LO : Reg := ⟨12300, [(8, 1099511627776)], 0, .plain⟩
def F.TXN_CBLOCK_LO_V : Field := ⟨R.TXN_CBLOCK_LO, 31, 0, .ro, .o, none⟩
/-- TXN_CBLOCK_HI -/
def R.TXN_CBLOCK_HI : Reg := ⟨12304, [(8, 1099511627776)], 0, .plain⟩
def F.TXN_CBLOCK_HI_V : Field := ⟨R.TXN_CBLOCK_HI, 31, 0, .ro, .o, none⟩
/-- TXN_SCOPEk_BASE -/
def R.TXN_SCOPEk_BASE : Reg := ⟨12320, [(4, 8), (8, 1099511627776)], 0, .plain⟩
def F.TXN_SCOPEk_BASE_ADDR : Field := ⟨R.TXN_SCOPEk_BASE, 25, 2, .rw, .o, none⟩
/-- TXN_SCOPEk_LEN -/
def R.TXN_SCOPEk_LEN : Reg := ⟨12324, [(4, 8), (8, 1099511627776)], 0, .plain⟩
def F.TXN_SCOPEk_LEN_LEN : Field := ⟨R.TXN_SCOPEk_LEN, 25, 2, .rw, .o, none⟩
/-- TXN_CFG -/
def R.TXN_CFG : Reg := ⟨14336, [], 50, .plain⟩
def F.TXN_CFG_TIMEOUT : Field := ⟨R.TXN_CFG, 9, 0, .rw, .i, some (1, 600)⟩
/-- TXN_GSTAT -/
def R.TXN_GSTAT : Reg := ⟨14340, [], 0, .plain⟩
def F.TXN_GSTAT_ONE_RESULT : Field := ⟨R.TXN_GSTAT, 27, 24, .ro, .o, none⟩
def F.TXN_GSTAT_JOURNAL : Field := ⟨R.TXN_GSTAT, 12, 0, .ro, .o, none⟩
/-- TXN_EVT -/
def R.TXN_EVT : Reg := ⟨14344, [], 0, .plain⟩
def F.TXN_EVT_BLOCKED : Field := ⟨R.TXN_EVT, 3, 3, .w1c, .o, none⟩
def F.TXN_EVT_TIMEOUT : Field := ⟨R.TXN_EVT, 2, 2, .w1c, .o, none⟩
def F.TXN_EVT_FAIL : Field := ⟨R.TXN_EVT, 1, 1, .w1c, .o, none⟩
def F.TXN_EVT_APPLIED : Field := ⟨R.TXN_EVT, 0, 0, .w1c, .o, none⟩
/-- TXN_EVTEN -/
def R.TXN_EVTEN : Reg := ⟨14348, [], 0, .plain⟩
def F.TXN_EVTEN_BLOCKED : Field := ⟨R.TXN_EVTEN, 3, 3, .rw, .i, none⟩
def F.TXN_EVTEN_TIMEOUT : Field := ⟨R.TXN_EVTEN, 2, 2, .rw, .i, none⟩
def F.TXN_EVTEN_FAIL : Field := ⟨R.TXN_EVTEN, 1, 1, .rw, .i, none⟩
def F.TXN_EVTEN_APPLIED : Field := ⟨R.TXN_EVTEN, 0, 0, .rw, .i, none⟩
/-- TXN_ONE_ADDR -/
def R.TXN_ONE_ADDR : Reg := ⟨14352, [], 0, .plain⟩
def F.TXN_ONE_ADDR_ADDR : Field := ⟨R.TXN_ONE_ADDR, 25, 2, .ro, .o, none⟩
/-- TXN_CNT_APPLIED -/
def R.TXN_CNT_APPLIED : Reg := ⟨14464, [], 0, .plain⟩
def F.TXN_CNT_APPLIED_V : Field := ⟨R.TXN_CNT_APPLIED, 31, 0, .ro, .o, none⟩
/-- TXN_CNT_FAILED -/
def R.TXN_CNT_FAILED : Reg := ⟨14468, [], 0, .plain⟩
def F.TXN_CNT_FAILED_V : Field := ⟨R.TXN_CNT_FAILED, 31, 0, .ro, .o, none⟩
/-- TXN_CNT_BLOCKED -/
def R.TXN_CNT_BLOCKED : Reg := ⟨14472, [], 0, .plain⟩
def F.TXN_CNT_BLOCKED_V : Field := ⟨R.TXN_CNT_BLOCKED, 31, 0, .ro, .o, none⟩
/-- TXN_CNT_TIMEOUT -/
def R.TXN_CNT_TIMEOUT : Reg := ⟨14476, [], 0, .plain⟩
def F.TXN_CNT_TIMEOUT_V : Field := ⟨R.TXN_CNT_TIMEOUT, 31, 0, .ro, .o, none⟩

/-- The TXN registers. -/
def regTableTxnUnit : List RegEntry :=
  [⟨R.TXN_CTRL, [.slot], [F.TXN_CTRL_BEGIN, F.TXN_CTRL_COMMIT, F.TXN_CTRL_ROLLBACK, F.TXN_CTRL_PERSIST]⟩,
   ⟨R.TXN_STAT, [.slot], [F.TXN_STAT_STATE, F.TXN_STAT_RESULT, F.TXN_STAT_ENTRIES]⟩,
   ⟨R.TXN_DETAIL, [.slot], [F.TXN_DETAIL_V]⟩,
   ⟨R.TXN_CBLOCK_LO, [.slot], [F.TXN_CBLOCK_LO_V]⟩,
   ⟨R.TXN_CBLOCK_HI, [.slot], [F.TXN_CBLOCK_HI_V]⟩,
   ⟨R.TXN_SCOPEk_BASE, [.slot], [F.TXN_SCOPEk_BASE_ADDR]⟩,
   ⟨R.TXN_SCOPEk_LEN, [.slot], [F.TXN_SCOPEk_LEN_LEN]⟩,
   ⟨R.TXN_CFG, [], [F.TXN_CFG_TIMEOUT]⟩,
   ⟨R.TXN_GSTAT, [], [F.TXN_GSTAT_ONE_RESULT, F.TXN_GSTAT_JOURNAL]⟩,
   ⟨R.TXN_EVT, [.evt], [F.TXN_EVT_BLOCKED, F.TXN_EVT_TIMEOUT, F.TXN_EVT_FAIL, F.TXN_EVT_APPLIED]⟩,
   ⟨R.TXN_EVTEN, [], [F.TXN_EVTEN_BLOCKED, F.TXN_EVTEN_TIMEOUT, F.TXN_EVTEN_FAIL, F.TXN_EVTEN_APPLIED]⟩,
   ⟨R.TXN_ONE_ADDR, [], [F.TXN_ONE_ADDR_ADDR]⟩,
   ⟨R.TXN_CNT_APPLIED, [], [F.TXN_CNT_APPLIED_V]⟩,
   ⟨R.TXN_CNT_FAILED, [], [F.TXN_CNT_FAILED_V]⟩,
   ⟨R.TXN_CNT_BLOCKED, [], [F.TXN_CNT_BLOCKED_V]⟩,
   ⟨R.TXN_CNT_TIMEOUT, [], [F.TXN_CNT_TIMEOUT_V]⟩]

/-! ## LOG (R425, R426) -/

/-- LOG_CTRL -/
def R.LOG_CTRL : Reg := ⟨16384, [], 0, .plain⟩
def F.LOG_CTRL_FLUSH : Field := ⟨R.LOG_CTRL, 0, 0, .w1s, .i, none⟩
/-- LOG_CFG -/
def R.LOG_CFG : Reg := ⟨16388, [], 1024, .plain⟩
def F.LOG_CFG_AUTO : Field := ⟨R.LOG_CFG, 11, 0, .rw, .i, some (0, 2048)⟩
/-- LOG_STAT -/
def R.LOG_STAT : Reg := ⟨16392, [], 0, .plain⟩
def F.LOG_STAT_FLUSHING : Field := ⟨R.LOG_STAT, 31, 31, .ro, .o, none⟩
def F.LOG_STAT_UNFLUSHED : Field := ⟨R.LOG_STAT, 27, 16, .ro, .o, none⟩
def F.LOG_STAT_HEAD : Field := ⟨R.LOG_STAT, 10, 0, .ro, .o, none⟩
/-- LOG_EVT -/
def R.LOG_EVT : Reg := ⟨16400, [], 0, .plain⟩
def F.LOG_EVT_FLASH_ERR : Field := ⟨R.LOG_EVT, 2, 2, .w1c, .o, none⟩
def F.LOG_EVT_OVERWRITE : Field := ⟨R.LOG_EVT, 1, 1, .w1c, .o, none⟩
def F.LOG_EVT_FLUSH_DONE : Field := ⟨R.LOG_EVT, 0, 0, .w1c, .o, none⟩
/-- LOG_EVTEN -/
def R.LOG_EVTEN : Reg := ⟨16404, [], 0, .plain⟩
def F.LOG_EVTEN_FLASH_ERR : Field := ⟨R.LOG_EVTEN, 2, 2, .rw, .i, none⟩
def F.LOG_EVTEN_OVERWRITE : Field := ⟨R.LOG_EVTEN, 1, 1, .rw, .i, none⟩
def F.LOG_EVTEN_FLUSH_DONE : Field := ⟨R.LOG_EVTEN, 0, 0, .rw, .i, none⟩
/-- LOG_CNT_LOST -/
def R.LOG_CNT_LOST : Reg := ⟨16512, [], 0, .plain⟩
def F.LOG_CNT_LOST_V : Field := ⟨R.LOG_CNT_LOST, 31, 0, .ro, .o, none⟩
/-- LOG_CNT_FLUSHED -/
def R.LOG_CNT_FLUSHED : Reg := ⟨16516, [], 0, .plain⟩
def F.LOG_CNT_FLUSHED_V : Field := ⟨R.LOG_CNT_FLUSHED, 31, 0, .ro, .o, none⟩
/-- LOG_ENTRYe_w -/
def R.LOG_ENTRYe_w : Reg := ⟨131072, [(2048, 32), (8, 4)], 0, .plain⟩
def F.LOG_ENTRYe_w_V : Field := ⟨R.LOG_ENTRYe_w, 31, 0, .ro, .i, none⟩

/-- The LOG registers. -/
def regTableLog : List RegEntry :=
  [⟨R.LOG_CTRL, [], [F.LOG_CTRL_FLUSH]⟩,
   ⟨R.LOG_CFG, [], [F.LOG_CFG_AUTO]⟩,
   ⟨R.LOG_STAT, [], [F.LOG_STAT_FLUSHING, F.LOG_STAT_UNFLUSHED, F.LOG_STAT_HEAD]⟩,
   ⟨R.LOG_EVT, [.evt], [F.LOG_EVT_FLASH_ERR, F.LOG_EVT_OVERWRITE, F.LOG_EVT_FLUSH_DONE]⟩,
   ⟨R.LOG_EVTEN, [], [F.LOG_EVTEN_FLASH_ERR, F.LOG_EVTEN_OVERWRITE, F.LOG_EVTEN_FLUSH_DONE]⟩,
   ⟨R.LOG_CNT_LOST, [], [F.LOG_CNT_LOST_V]⟩,
   ⟨R.LOG_CNT_FLUSHED, [], [F.LOG_CNT_FLUSHED_V]⟩,
   ⟨R.LOG_ENTRYe_w, [.guard], [F.LOG_ENTRYe_w_V]⟩]

/-! ## IRQ (R400, R401) -/

/-- IRQ_STAT -/
def R.IRQ_STAT : Reg := ⟨24576, [], 0, .plain⟩
def F.IRQ_STAT_V : Field := ⟨R.IRQ_STAT, 31, 0, .ro, .o, none⟩
/-- IRQ_PIN_EN -/
def R.IRQ_PIN_EN : Reg := ⟨24580, [], 0, .plain⟩
def F.IRQ_PIN_EN_V : Field := ⟨R.IRQ_PIN_EN, 31, 0, .rw, .i, none⟩
/-- IRQ_MSI_EN -/
def R.IRQ_MSI_EN : Reg := ⟨24584, [], 0, .plain⟩
def F.IRQ_MSI_EN_V : Field := ⟨R.IRQ_MSI_EN, 31, 0, .rw, .i, none⟩
/-- IRQ_EOI -/
def R.IRQ_EOI : Reg := ⟨24588, [], 0, .plain⟩
def F.IRQ_EOI_V : Field := ⟨R.IRQ_EOI, 31, 0, .w1s, .o, none⟩

/-- The IRQ registers. The units are numbered 0 to 25; bits 31:26 of IRQ_PIN_EN and IRQ_MSI_EN, which the manual neither describes
nor reserves, are stored as RW bits of no effect (DESIGN CHOICE, log entry 185). -/
def regTableIrq : List RegEntry :=
  [⟨R.IRQ_STAT, [], [F.IRQ_STAT_V]⟩,
   ⟨R.IRQ_PIN_EN, [], [F.IRQ_PIN_EN_V]⟩,
   ⟨R.IRQ_MSI_EN, [], [F.IRQ_MSI_EN_V]⟩,
   ⟨R.IRQ_EOI, [], [F.IRQ_EOI_V]⟩]

/-! ## NP (R66 to R86) -/

/-- NP_CFG -/
def R.NP_CFG : Reg := ⟨1048576, [(2, 262144)], 99745794, .plain⟩
def F.NP_CFG_MAXFRM : Field := ⟨R.NP_CFG, 29, 16, .rw, .i, some (1518, 9600)⟩
def F.NP_CFG_FC_MODE : Field := ⟨R.NP_CFG, 7, 6, .rw, .i, none⟩
def F.NP_CFG_PFC : Field := ⟨R.NP_CFG, 5, 5, .rw, .i, none⟩
def F.NP_CFG_PROMISC : Field := ⟨R.NP_CFG, 4, 4, .rw, .i, none⟩
def F.NP_CFG_TAG_AWARE : Field := ⟨R.NP_CFG, 3, 3, .rw, .i, none⟩
def F.NP_CFG_SPEED : Field := ⟨R.NP_CFG, 1, 1, .rw, .i, none⟩
def F.NP_CFG_EN : Field := ⟨R.NP_CFG, 0, 0, .rw, .i, none⟩
/-- NP_STAT -/
def R.NP_STAT : Reg := ⟨1048580, [(2, 262144)], 0, .plain⟩
def F.NP_STAT_FC_HELD : Field := ⟨R.NP_STAT, 4, 4, .ro, .o, none⟩
def F.NP_STAT_REM_FAULT : Field := ⟨R.NP_STAT, 3, 3, .ro, .o, none⟩
def F.NP_STAT_HI_BER : Field := ⟨R.NP_STAT, 2, 2, .ro, .o, none⟩
def F.NP_STAT_BLOCK_LOCK : Field := ⟨R.NP_STAT, 1, 1, .ro, .o, none⟩
def F.NP_STAT_LINK : Field := ⟨R.NP_STAT, 0, 0, .ro, .o, none⟩
/-- NP_EVT -/
def R.NP_EVT : Reg := ⟨1048584, [(2, 262144)], 0, .plain⟩
def F.NP_EVT_WAKE_MATCH : Field := ⟨R.NP_EVT, 7, 7, .w1c, .o, none⟩
def F.NP_EVT_ADDR_CONFLICT : Field := ⟨R.NP_EVT, 6, 6, .w1c, .o, none⟩
def F.NP_EVT_ARP_UNRESOLVED : Field := ⟨R.NP_EVT, 5, 5, .w1c, .o, none⟩
def F.NP_EVT_RX_NOBUF : Field := ⟨R.NP_EVT, 4, 4, .w1c, .o, none⟩
def F.NP_EVT_TX_REFUSED : Field := ⟨R.NP_EVT, 3, 3, .w1c, .o, none⟩
def F.NP_EVT_CNT_HALF : Field := ⟨R.NP_EVT, 2, 2, .w1c, .o, none⟩
def F.NP_EVT_LINK_DOWN : Field := ⟨R.NP_EVT, 1, 1, .w1c, .o, none⟩
def F.NP_EVT_LINK_UP : Field := ⟨R.NP_EVT, 0, 0, .w1c, .o, none⟩
/-- NP_EVTEN -/
def R.NP_EVTEN : Reg := ⟨1048588, [(2, 262144)], 0, .plain⟩
def F.NP_EVTEN_WAKE_MATCH : Field := ⟨R.NP_EVTEN, 7, 7, .rw, .i, none⟩
def F.NP_EVTEN_ADDR_CONFLICT : Field := ⟨R.NP_EVTEN, 6, 6, .rw, .i, none⟩
def F.NP_EVTEN_ARP_UNRESOLVED : Field := ⟨R.NP_EVTEN, 5, 5, .rw, .i, none⟩
def F.NP_EVTEN_RX_NOBUF : Field := ⟨R.NP_EVTEN, 4, 4, .rw, .i, none⟩
def F.NP_EVTEN_TX_REFUSED : Field := ⟨R.NP_EVTEN, 3, 3, .rw, .i, none⟩
def F.NP_EVTEN_CNT_HALF : Field := ⟨R.NP_EVTEN, 2, 2, .rw, .i, none⟩
def F.NP_EVTEN_LINK_DOWN : Field := ⟨R.NP_EVTEN, 1, 1, .rw, .i, none⟩
def F.NP_EVTEN_LINK_UP : Field := ⟨R.NP_EVTEN, 0, 0, .rw, .i, none⟩
/-- NP_MAC_LO -/
def R.NP_MAC_LO : Reg := ⟨1048592, [(2, 262144)], 0, .plain⟩
def F.NP_MAC_LO_V : Field := ⟨R.NP_MAC_LO, 31, 0, .rw, .i, none⟩
/-- NP_MAC_HI -/
def R.NP_MAC_HI : Reg := ⟨1048596, [(2, 262144)], 0, .plain⟩
def F.NP_MAC_HI_V : Field := ⟨R.NP_MAC_HI, 15, 0, .rw, .i, none⟩
/-- NP_IPV4 -/
def R.NP_IPV4 : Reg := ⟨1048600, [(2, 262144)], 0, .plain⟩
def F.NP_IPV4_V : Field := ⟨R.NP_IPV4, 31, 0, .rw, .i, none⟩
/-- NP_IPMASK -/
def R.NP_IPMASK : Reg := ⟨1048604, [(2, 262144)], 0, .plain⟩
def F.NP_IPMASK_V : Field := ⟨R.NP_IPMASK, 31, 0, .rw, .i, none⟩
/-- NP_GATEWAY -/
def R.NP_GATEWAY : Reg := ⟨1048608, [(2, 262144)], 0, .plain⟩
def F.NP_GATEWAY_V : Field := ⟨R.NP_GATEWAY, 31, 0, .rw, .i, none⟩
/-- NP_RESP -/
def R.NP_RESP : Reg := ⟨1048612, [(2, 262144)], 6553600, .plain⟩
def F.NP_RESP_ICMP_RATE : Field := ⟨R.NP_RESP, 31, 16, .rw, .i, some (1, 10000)⟩
def F.NP_RESP_IGMP_EN : Field := ⟨R.NP_RESP, 2, 2, .rw, .i, none⟩
def F.NP_RESP_ICMP_EN : Field := ⟨R.NP_RESP, 1, 1, .rw, .i, none⟩
def F.NP_RESP_ARP_EN : Field := ⟨R.NP_RESP, 0, 0, .rw, .i, none⟩
/-- NP_CBS_A -/
def R.NP_CBS_A : Reg := ⟨1048624, [(2, 262144)], 196608, .plain⟩
def F.NP_CBS_A_PCP : Field := ⟨R.NP_CBS_A, 18, 16, .rw, .i, none⟩
def F.NP_CBS_A_IDLE : Field := ⟨R.NP_CBS_A, 15, 0, .rw, .i, none⟩
/-- NP_CBS_B -/
def R.NP_CBS_B : Reg := ⟨1048628, [(2, 262144)], 131072, .plain⟩
def F.NP_CBS_B_PCP : Field := ⟨R.NP_CBS_B, 18, 16, .rw, .i, none⟩
def F.NP_CBS_B_IDLE : Field := ⟨R.NP_CBS_B, 15, 0, .rw, .i, none⟩
/-- NP_HQ_VLANq -/
def R.NP_HQ_VLANq : Reg := ⟨1048640, [(2, 262144), (4, 4)], 0, .plain⟩
def F.NP_HQ_VLANq_RX_EN : Field := ⟨R.NP_HQ_VLANq, 31, 31, .rw, .i, none⟩
def F.NP_HQ_VLANq_TX_EN : Field := ⟨R.NP_HQ_VLANq, 30, 30, .rw, .i, none⟩
def F.NP_HQ_VLANq_INS : Field := ⟨R.NP_HQ_VLANq, 29, 29, .rw, .i, none⟩
def F.NP_HQ_VLANq_STRIP : Field := ⟨R.NP_HQ_VLANq, 28, 28, .rw, .i, none⟩
def F.NP_HQ_VLANq_UNTAGGED : Field := ⟨R.NP_HQ_VLANq, 27, 27, .rw, .i, none⟩
def F.NP_HQ_VLANq_PCP : Field := ⟨R.NP_HQ_VLANq, 15, 13, .rw, .i, none⟩
def F.NP_HQ_VLANq_VID : Field := ⟨R.NP_HQ_VLANq, 11, 0, .rw, .i, none⟩
/-- NP_FC_PRIO -/
def R.NP_FC_PRIO : Reg := ⟨1048656, [(2, 262144)], 255, .plain⟩
def F.NP_FC_PRIO_PRIO : Field := ⟨R.NP_FC_PRIO, 7, 0, .rw, .i, none⟩
/-- NP_CNT_HALF_LO -/
def R.NP_CNT_HALF_LO : Reg := ⟨1048672, [(2, 262144)], 0, .plain⟩
def F.NP_CNT_HALF_LO_V : Field := ⟨R.NP_CNT_HALF_LO, 31, 0, .w1c, .o, none⟩
/-- NP_CNT_HALF_HI -/
def R.NP_CNT_HALF_HI : Reg := ⟨1048676, [(2, 262144)], 0, .plain⟩
def F.NP_CNT_HALF_HI_V : Field := ⟨R.NP_CNT_HALF_HI, 7, 0, .w1c, .o, none⟩
/-- NP_HGROUPg -/
def R.NP_HGROUPg : Reg := ⟨1048704, [(2, 262144), (16, 4)], 0, .plain⟩
def F.NP_HGROUPg_V : Field := ⟨R.NP_HGROUPg, 31, 0, .rw, .i, none⟩
/-- NP_WAKEn_CFG -/
def R.NP_WAKEn_CFG : Reg := ⟨1048832, [(2, 262144), (8, 32)], 0, .plain⟩
def F.NP_WAKEn_CFG_EN : Field := ⟨R.NP_WAKEn_CFG, 31, 31, .rw, .i, none⟩
def F.NP_WAKEn_CFG_OFFSET : Field := ⟨R.NP_WAKEn_CFG, 25, 16, .rw, .i, some (0, 1023)⟩
def F.NP_WAKEn_CFG_CHECK : Field := ⟨R.NP_WAKEn_CFG, 15, 0, .rw, .i, none⟩
/-- NP_WAKEn_MASKk -/
def R.NP_WAKEn_MASKk : Reg := ⟨1048836, [(2, 262144), (8, 32), (4, 4)], 0, .plain⟩
def F.NP_WAKEn_MASKk_V : Field := ⟨R.NP_WAKEn_MASKk, 31, 0, .rw, .i, none⟩
/-- NP_HRr_BASE -/
def R.NP_HRr_BASE : Reg := ⟨1049088, [(2, 262144), (8, 16)], 0, .plain⟩
def F.NP_HRr_BASE_ADDR : Field := ⟨R.NP_HRr_BASE, 31, 4, .rw, .i, none⟩
/-- NP_HRr_CFG -/
def R.NP_HRr_CFG : Reg := ⟨1049092, [(2, 262144), (8, 16)], 0, .plain⟩
def F.NP_HRr_CFG_SIZE_LOG2 : Field := ⟨R.NP_HRr_CFG, 19, 16, .rw, .i, some (4, 12)⟩
def F.NP_HRr_CFG_ADDR_HI : Field := ⟨R.NP_HRr_CFG, 3, 0, .rw, .i, none⟩
/-- NP_HRr_TAIL -/
def R.NP_HRr_TAIL : Reg := ⟨1049096, [(2, 262144), (8, 16)], 0, .plain⟩
def F.NP_HRr_TAIL_TAIL : Field := ⟨R.NP_HRr_TAIL, 11, 0, .rw, .i, none⟩
/-- NP_HRr_HEAD -/
def R.NP_HRr_HEAD : Reg := ⟨1049100, [(2, 262144), (8, 16)], 0, .plain⟩
def F.NP_HRr_HEAD_HEAD : Field := ⟨R.NP_HRr_HEAD, 11, 0, .ro, .i, none⟩
/-- NP_HQEVT -/
def R.NP_HQEVT : Reg := ⟨1049344, [(2, 262144)], 0, .plain⟩
def F.NP_HQEVT_RX_DONE : Field := ⟨R.NP_HQEVT, 11, 8, .w1c, .o, none⟩
def F.NP_HQEVT_TX_DONE : Field := ⟨R.NP_HQEVT, 3, 0, .w1c, .o, none⟩
/-- NP_HQEVTEN -/
def R.NP_HQEVTEN : Reg := ⟨1049348, [(2, 262144)], 0, .plain⟩
def F.NP_HQEVTEN_RX_DONE : Field := ⟨R.NP_HQEVTEN, 11, 8, .rw, .i, none⟩
def F.NP_HQEVTEN_TX_DONE : Field := ⟨R.NP_HQEVTEN, 3, 0, .rw, .i, none⟩
/-- NP_CNTi_LO -/
def R.NP_CNTi_LO : Reg := ⟨1049600, [(2, 262144), (40, 8)], 0, .plain⟩
def F.NP_CNTi_LO_V : Field := ⟨R.NP_CNTi_LO, 31, 0, .ro, .o, none⟩
/-- NP_CNTi_HI -/
def R.NP_CNTi_HI : Reg := ⟨1049604, [(2, 262144), (40, 8)], 0, .plain⟩
def F.NP_CNTi_HI_V : Field := ⟨R.NP_CNTi_HI, 7, 0, .ro, .o, none⟩

/-- The NP registers. -/
def regTableNp : List RegEntry :=
  [⟨R.NP_CFG, [], [F.NP_CFG_MAXFRM, F.NP_CFG_FC_MODE, F.NP_CFG_PFC, F.NP_CFG_PROMISC, F.NP_CFG_TAG_AWARE, F.NP_CFG_SPEED, F.NP_CFG_EN]⟩,
   ⟨R.NP_STAT, [], [F.NP_STAT_FC_HELD, F.NP_STAT_REM_FAULT, F.NP_STAT_HI_BER, F.NP_STAT_BLOCK_LOCK, F.NP_STAT_LINK]⟩,
   ⟨R.NP_EVT, [.evt], [F.NP_EVT_WAKE_MATCH, F.NP_EVT_ADDR_CONFLICT, F.NP_EVT_ARP_UNRESOLVED, F.NP_EVT_RX_NOBUF, F.NP_EVT_TX_REFUSED, F.NP_EVT_CNT_HALF, F.NP_EVT_LINK_DOWN, F.NP_EVT_LINK_UP]⟩,
   ⟨R.NP_EVTEN, [], [F.NP_EVTEN_WAKE_MATCH, F.NP_EVTEN_ADDR_CONFLICT, F.NP_EVTEN_ARP_UNRESOLVED, F.NP_EVTEN_RX_NOBUF, F.NP_EVTEN_TX_REFUSED, F.NP_EVTEN_CNT_HALF, F.NP_EVTEN_LINK_DOWN, F.NP_EVTEN_LINK_UP]⟩,
   ⟨R.NP_MAC_LO, [], [F.NP_MAC_LO_V]⟩,
   ⟨R.NP_MAC_HI, [], [F.NP_MAC_HI_V]⟩,
   ⟨R.NP_IPV4, [], [F.NP_IPV4_V]⟩,
   ⟨R.NP_IPMASK, [], [F.NP_IPMASK_V]⟩,
   ⟨R.NP_GATEWAY, [], [F.NP_GATEWAY_V]⟩,
   ⟨R.NP_RESP, [], [F.NP_RESP_ICMP_RATE, F.NP_RESP_IGMP_EN, F.NP_RESP_ICMP_EN, F.NP_RESP_ARP_EN]⟩,
   ⟨R.NP_CBS_A, [], [F.NP_CBS_A_PCP, F.NP_CBS_A_IDLE]⟩,
   ⟨R.NP_CBS_B, [], [F.NP_CBS_B_PCP, F.NP_CBS_B_IDLE]⟩,
   ⟨R.NP_HQ_VLANq, [], [F.NP_HQ_VLANq_RX_EN, F.NP_HQ_VLANq_TX_EN, F.NP_HQ_VLANq_INS, F.NP_HQ_VLANq_STRIP, F.NP_HQ_VLANq_UNTAGGED, F.NP_HQ_VLANq_PCP, F.NP_HQ_VLANq_VID]⟩,
   ⟨R.NP_FC_PRIO, [], [F.NP_FC_PRIO_PRIO]⟩,
   ⟨R.NP_CNT_HALF_LO, [], [F.NP_CNT_HALF_LO_V]⟩,
   ⟨R.NP_CNT_HALF_HI, [], [F.NP_CNT_HALF_HI_V]⟩,
   ⟨R.NP_HGROUPg, [], [F.NP_HGROUPg_V]⟩,
   ⟨R.NP_WAKEn_CFG, [], [F.NP_WAKEn_CFG_EN, F.NP_WAKEn_CFG_OFFSET, F.NP_WAKEn_CFG_CHECK]⟩,
   ⟨R.NP_WAKEn_MASKk, [], [F.NP_WAKEn_MASKk_V]⟩,
   ⟨R.NP_HRr_BASE, [], [F.NP_HRr_BASE_ADDR]⟩,
   ⟨R.NP_HRr_CFG, [], [F.NP_HRr_CFG_SIZE_LOG2, F.NP_HRr_CFG_ADDR_HI]⟩,
   ⟨R.NP_HRr_TAIL, [], [F.NP_HRr_TAIL_TAIL]⟩,
   ⟨R.NP_HRr_HEAD, [], [F.NP_HRr_HEAD_HEAD]⟩,
   ⟨R.NP_HQEVT, [.evt], [F.NP_HQEVT_RX_DONE, F.NP_HQEVT_TX_DONE]⟩,
   ⟨R.NP_HQEVTEN, [], [F.NP_HQEVTEN_RX_DONE, F.NP_HQEVTEN_TX_DONE]⟩,
   ⟨R.NP_CNTi_LO, [.latch], [F.NP_CNTi_LO_V]⟩,
   ⟨R.NP_CNTi_HI, [], [F.NP_CNTi_HI_V]⟩]

/-! ## PTP (R49 to R65) -/

/-- PTP_CTRL -/
def R.PTP_CTRL : Reg := ⟨1179648, [(2, 262144)], 856064, .plain⟩
def F.PTP_CTRL_DOMAIN : Field := ⟨R.PTP_CTRL, 31, 24, .rw, .i, some (0, 127)⟩
def F.PTP_CTRL_LOG_SYNC : Field := ⟨R.PTP_CTRL, 19, 16, .rw, .i, some (-4, 1)⟩
def F.PTP_CTRL_LOG_ANN : Field := ⟨R.PTP_CTRL, 15, 12, .rw, .i, some (0, 4)⟩
def F.PTP_CTRL_LOG_DREQ : Field := ⟨R.PTP_CTRL, 11, 8, .rw, .i, some (-4, 5)⟩
def F.PTP_CTRL_DELAY : Field := ⟨R.PTP_CTRL, 7, 6, .rw, .i, some (0, 1)⟩
def F.PTP_CTRL_PROFILE : Field := ⟨R.PTP_CTRL, 5, 4, .rw, .i, some (0, 1)⟩
def F.PTP_CTRL_STEP_POL : Field := ⟨R.PTP_CTRL, 3, 3, .rw, .i, none⟩
def F.PTP_CTRL_MODE : Field := ⟨R.PTP_CTRL, 1, 0, .rw, .i, some (0, 2)⟩
/-- PTP_STAT -/
def R.PTP_STAT : Reg := ⟨1179652, [(2, 262144)], 768, .plain⟩
def F.PTP_STAT_TIME_SET : Field := ⟨R.PTP_STAT, 16, 16, .ro, .o, none⟩
def F.PTP_STAT_PORT_STATE : Field := ⟨R.PTP_STAT, 11, 8, .ro, .o, none⟩
def F.PTP_STAT_PD_VALID : Field := ⟨R.PTP_STAT, 1, 1, .ro, .o, none⟩
def F.PTP_STAT_TIME_VALID : Field := ⟨R.PTP_STAT, 0, 0, .ro, .o, none⟩
/-- PTP_EVT -/
def R.PTP_EVT : Reg := ⟨1179656, [(2, 262144)], 0, .plain⟩
def F.PTP_EVT_GM_CHANGE : Field := ⟨R.PTP_EVT, 10, 10, .w1c, .o, none⟩
def F.PTP_EVT_ACQ : Field := ⟨R.PTP_EVT, 9, 9, .w1c, .o, none⟩
def F.PTP_EVT_TXTS_OVF : Field := ⟨R.PTP_EVT, 8, 8, .w1c, .o, none⟩
def F.PTP_EVT_RXQ_FULL : Field := ⟨R.PTP_EVT, 7, 7, .w1c, .o, none⟩
def F.PTP_EVT_PD_LOST : Field := ⟨R.PTP_EVT, 6, 6, .w1c, .o, none⟩
def F.PTP_EVT_FU_MISSING : Field := ⟨R.PTP_EVT, 5, 5, .w1c, .o, none⟩
def F.PTP_EVT_STEP : Field := ⟨R.PTP_EVT, 4, 4, .w1c, .o, none⟩
def F.PTP_EVT_ANN_BAD : Field := ⟨R.PTP_EVT, 3, 3, .w1c, .o, none⟩
def F.PTP_EVT_DOMAIN : Field := ⟨R.PTP_EVT, 2, 2, .w1c, .o, none⟩
def F.PTP_EVT_MALFORMED : Field := ⟨R.PTP_EVT, 1, 1, .w1c, .o, none⟩
def F.PTP_EVT_STATE : Field := ⟨R.PTP_EVT, 0, 0, .w1c, .o, none⟩
/-- PTP_EVTEN -/
def R.PTP_EVTEN : Reg := ⟨1179660, [(2, 262144)], 0, .plain⟩
def F.PTP_EVTEN_GM_CHANGE : Field := ⟨R.PTP_EVTEN, 10, 10, .rw, .i, none⟩
def F.PTP_EVTEN_ACQ : Field := ⟨R.PTP_EVTEN, 9, 9, .rw, .i, none⟩
def F.PTP_EVTEN_TXTS_OVF : Field := ⟨R.PTP_EVTEN, 8, 8, .rw, .i, none⟩
def F.PTP_EVTEN_RXQ_FULL : Field := ⟨R.PTP_EVTEN, 7, 7, .rw, .i, none⟩
def F.PTP_EVTEN_PD_LOST : Field := ⟨R.PTP_EVTEN, 6, 6, .rw, .i, none⟩
def F.PTP_EVTEN_FU_MISSING : Field := ⟨R.PTP_EVTEN, 5, 5, .rw, .i, none⟩
def F.PTP_EVTEN_STEP : Field := ⟨R.PTP_EVTEN, 4, 4, .rw, .i, none⟩
def F.PTP_EVTEN_ANN_BAD : Field := ⟨R.PTP_EVTEN, 3, 3, .rw, .i, none⟩
def F.PTP_EVTEN_DOMAIN : Field := ⟨R.PTP_EVTEN, 2, 2, .rw, .i, none⟩
def F.PTP_EVTEN_MALFORMED : Field := ⟨R.PTP_EVTEN, 1, 1, .rw, .i, none⟩
def F.PTP_EVTEN_STATE : Field := ⟨R.PTP_EVTEN, 0, 0, .rw, .i, none⟩
/-- PTP_STEPLIM -/
def R.PTP_STEPLIM : Reg := ⟨1179664, [(2, 262144)], 1000000, .plain⟩
def F.PTP_STEPLIM_LIMIT : Field := ⟨R.PTP_STEPLIM, 31, 0, .rw, .i, some (1000, 1000000000)⟩
/-- PTP_PDMAX -/
def R.PTP_PDMAX : Reg := ⟨1179668, [(2, 262144)], 100000, .plain⟩
def F.PTP_PDMAX_MAX : Field := ⟨R.PTP_PDMAX, 31, 0, .rw, .i, some (100, 10000000)⟩
/-- PTP_CAL_IN10 -/
def R.PTP_CAL_IN10 : Reg := ⟨1179672, [(2, 262144)], 2726298, .fused⟩
def F.PTP_CAL_IN10_VALUE : Field := ⟨R.PTP_CAL_IN10, 31, 0, .rw, .m, none⟩
/-- PTP_CAL_EG10 -/
def R.PTP_CAL_EG10 : Reg := ⟨1179676, [(2, 262144)], 2236416, .fused⟩
def F.PTP_CAL_EG10_VALUE : Field := ⟨R.PTP_CAL_EG10, 31, 0, .rw, .m, none⟩
/-- PTP_CAL_IN25 -/
def R.PTP_CAL_IN25 : Reg := ⟨1179680, [(2, 262144)], 1258291, .fused⟩
def F.PTP_CAL_IN25_VALUE : Field := ⟨R.PTP_CAL_IN25, 31, 0, .rw, .m, none⟩
/-- PTP_CAL_EG25 -/
def R.PTP_CAL_EG25 : Reg := ⟨1179684, [(2, 262144)], 1089536, .fused⟩
def F.PTP_CAL_EG25_VALUE : Field := ⟨R.PTP_CAL_EG25, 31, 0, .rw, .m, none⟩
/-- PTP_ASYM -/
def R.PTP_ASYM : Reg := ⟨1179688, [(2, 262144)], 0, .plain⟩
def F.PTP_ASYM_ASYM : Field := ⟨R.PTP_ASYM, 31, 0, .rw, .i, none⟩
/-- PTP_OFS -/
def R.PTP_OFS : Reg := ⟨1179696, [(2, 262144)], 0, .plain⟩
def F.PTP_OFS_OFS : Field := ⟨R.PTP_OFS, 31, 0, .ro, .o, none⟩
/-- PTP_MPD -/
def R.PTP_MPD : Reg := ⟨1179700, [(2, 262144)], 0, .plain⟩
def F.PTP_MPD_MPD : Field := ⟨R.PTP_MPD, 31, 0, .ro, .o, none⟩
/-- PTP_TXTS_HEAD -/
def R.PTP_TXTS_HEAD : Reg := ⟨1179712, [(2, 262144)], 0, .plain⟩
def F.PTP_TXTS_HEAD_VALID : Field := ⟨R.PTP_TXTS_HEAD, 31, 31, .ro, .o, none⟩
def F.PTP_TXTS_HEAD_LEVEL : Field := ⟨R.PTP_TXTS_HEAD, 20, 16, .ro, .o, none⟩
def F.PTP_TXTS_HEAD_ID : Field := ⟨R.PTP_TXTS_HEAD, 15, 0, .ro, .o, none⟩
/-- PTP_TXTS_NS -/
def R.PTP_TXTS_NS : Reg := ⟨1179716, [(2, 262144)], 0, .plain⟩
def F.PTP_TXTS_NS_NS : Field := ⟨R.PTP_TXTS_NS, 31, 0, .ro, .o, none⟩
/-- PTP_TXTS_POP -/
def R.PTP_TXTS_POP : Reg := ⟨1179720, [(2, 262144)], 0, .plain⟩
def F.PTP_TXTS_POP_POP : Field := ⟨R.PTP_TXTS_POP, 0, 0, .w1s, .o, none⟩
/-- PTP_ERRLOG -/
def R.PTP_ERRLOG : Reg := ⟨1179728, [(2, 262144)], 0, .plain⟩
def F.PTP_ERRLOG_CODE : Field := ⟨R.PTP_ERRLOG, 31, 24, .ro, .o, none⟩
def F.PTP_ERRLOG_MSGTYPE : Field := ⟨R.PTP_ERRLOG, 23, 20, .ro, .o, none⟩
def F.PTP_ERRLOG_SEQ : Field := ⟨R.PTP_ERRLOG, 15, 0, .ro, .o, none⟩
/-- PTP_ERRTIME -/
def R.PTP_ERRTIME : Reg := ⟨1179732, [(2, 262144)], 0, .plain⟩
def F.PTP_ERRTIME_NS : Field := ⟨R.PTP_ERRTIME, 31, 0, .ro, .o, none⟩
/-- PTP_CNT_MALFORMED -/
def R.PTP_CNT_MALFORMED : Reg := ⟨1179776, [(2, 262144)], 0, .plain⟩
def F.PTP_CNT_MALFORMED_V : Field := ⟨R.PTP_CNT_MALFORMED, 31, 0, .ro, .o, none⟩
/-- PTP_CNT_DOMAIN -/
def R.PTP_CNT_DOMAIN : Reg := ⟨1179780, [(2, 262144)], 0, .plain⟩
def F.PTP_CNT_DOMAIN_V : Field := ⟨R.PTP_CNT_DOMAIN, 31, 0, .ro, .o, none⟩
/-- PTP_CNT_ANN_BAD -/
def R.PTP_CNT_ANN_BAD : Reg := ⟨1179784, [(2, 262144)], 0, .plain⟩
def F.PTP_CNT_ANN_BAD_V : Field := ⟨R.PTP_CNT_ANN_BAD, 31, 0, .ro, .o, none⟩
/-- PTP_CNT_STEP -/
def R.PTP_CNT_STEP : Reg := ⟨1179788, [(2, 262144)], 0, .plain⟩
def F.PTP_CNT_STEP_V : Field := ⟨R.PTP_CNT_STEP, 31, 0, .ro, .o, none⟩
/-- PTP_CNT_FU_MISSING -/
def R.PTP_CNT_FU_MISSING : Reg := ⟨1179792, [(2, 262144)], 0, .plain⟩
def F.PTP_CNT_FU_MISSING_V : Field := ⟨R.PTP_CNT_FU_MISSING, 31, 0, .ro, .o, none⟩
/-- PTP_CNT_FU_ORPHAN -/
def R.PTP_CNT_FU_ORPHAN : Reg := ⟨1179796, [(2, 262144)], 0, .plain⟩
def F.PTP_CNT_FU_ORPHAN_V : Field := ⟨R.PTP_CNT_FU_ORPHAN, 31, 0, .ro, .o, none⟩
/-- PTP_CNT_DRESP_MISSING -/
def R.PTP_CNT_DRESP_MISSING : Reg := ⟨1179800, [(2, 262144)], 0, .plain⟩
def F.PTP_CNT_DRESP_MISSING_V : Field := ⟨R.PTP_CNT_DRESP_MISSING, 31, 0, .ro, .o, none⟩
/-- PTP_CNT_PD_BAD -/
def R.PTP_CNT_PD_BAD : Reg := ⟨1179804, [(2, 262144)], 0, .plain⟩
def F.PTP_CNT_PD_BAD_V : Field := ⟨R.PTP_CNT_PD_BAD, 31, 0, .ro, .o, none⟩
/-- PTP_CNT_MULTI_RESP -/
def R.PTP_CNT_MULTI_RESP : Reg := ⟨1179808, [(2, 262144)], 0, .plain⟩
def F.PTP_CNT_MULTI_RESP_V : Field := ⟨R.PTP_CNT_MULTI_RESP, 31, 0, .ro, .o, none⟩
/-- PTP_CNT_RXQ_DROP -/
def R.PTP_CNT_RXQ_DROP : Reg := ⟨1179812, [(2, 262144)], 0, .plain⟩
def F.PTP_CNT_RXQ_DROP_V : Field := ⟨R.PTP_CNT_RXQ_DROP, 31, 0, .ro, .o, none⟩
/-- PTP_CNT_TXTS_DROP -/
def R.PTP_CNT_TXTS_DROP : Reg := ⟨1179816, [(2, 262144)], 0, .plain⟩
def F.PTP_CNT_TXTS_DROP_V : Field := ⟨R.PTP_CNT_TXTS_DROP, 31, 0, .ro, .o, none⟩
/-- PTP_TIME_NS -/
def R.PTP_TIME_NS : Reg := ⟨1179904, [(2, 262144)], 0, .plain⟩
def F.PTP_TIME_NS_V : Field := ⟨R.PTP_TIME_NS, 31, 0, .ro, .o, none⟩
/-- PTP_TIME_SL -/
def R.PTP_TIME_SL : Reg := ⟨1179908, [(2, 262144)], 0, .plain⟩
def F.PTP_TIME_SL_V : Field := ⟨R.PTP_TIME_SL, 31, 0, .ro, .o, none⟩
/-- PTP_TIME_SH -/
def R.PTP_TIME_SH : Reg := ⟨1179912, [(2, 262144)], 0, .plain⟩
def F.PTP_TIME_SH_V : Field := ⟨R.PTP_TIME_SH, 15, 0, .ro, .o, none⟩
/-- PTP_ACQ_LO -/
def R.PTP_ACQ_LO : Reg := ⟨1179916, [(2, 262144)], 0, .plain⟩
def F.PTP_ACQ_LO_V : Field := ⟨R.PTP_ACQ_LO, 31, 0, .ro, .o, none⟩
/-- PTP_ACQ_HI -/
def R.PTP_ACQ_HI : Reg := ⟨1179920, [(2, 262144)], 0, .plain⟩
def F.PTP_ACQ_HI_V : Field := ⟨R.PTP_ACQ_HI, 31, 0, .ro, .o, none⟩
/-- PTP_REACQ -/
def R.PTP_REACQ : Reg := ⟨1179924, [(2, 262144)], 0, .plain⟩
def F.PTP_REACQ_GO : Field := ⟨R.PTP_REACQ, 0, 0, .w1s, .i, none⟩

/-- The PTP registers. -/
def regTablePtp : List RegEntry :=
  [⟨R.PTP_CTRL, [], [F.PTP_CTRL_DOMAIN, F.PTP_CTRL_LOG_SYNC, F.PTP_CTRL_LOG_ANN, F.PTP_CTRL_LOG_DREQ, F.PTP_CTRL_DELAY, F.PTP_CTRL_PROFILE, F.PTP_CTRL_STEP_POL, F.PTP_CTRL_MODE]⟩,
   ⟨R.PTP_STAT, [], [F.PTP_STAT_TIME_SET, F.PTP_STAT_PORT_STATE, F.PTP_STAT_PD_VALID, F.PTP_STAT_TIME_VALID]⟩,
   ⟨R.PTP_EVT, [.evt], [F.PTP_EVT_GM_CHANGE, F.PTP_EVT_ACQ, F.PTP_EVT_TXTS_OVF, F.PTP_EVT_RXQ_FULL, F.PTP_EVT_PD_LOST, F.PTP_EVT_FU_MISSING, F.PTP_EVT_STEP, F.PTP_EVT_ANN_BAD, F.PTP_EVT_DOMAIN, F.PTP_EVT_MALFORMED, F.PTP_EVT_STATE]⟩,
   ⟨R.PTP_EVTEN, [], [F.PTP_EVTEN_GM_CHANGE, F.PTP_EVTEN_ACQ, F.PTP_EVTEN_TXTS_OVF, F.PTP_EVTEN_RXQ_FULL, F.PTP_EVTEN_PD_LOST, F.PTP_EVTEN_FU_MISSING, F.PTP_EVTEN_STEP, F.PTP_EVTEN_ANN_BAD, F.PTP_EVTEN_DOMAIN, F.PTP_EVTEN_MALFORMED, F.PTP_EVTEN_STATE]⟩,
   ⟨R.PTP_STEPLIM, [], [F.PTP_STEPLIM_LIMIT]⟩,
   ⟨R.PTP_PDMAX, [], [F.PTP_PDMAX_MAX]⟩,
   ⟨R.PTP_CAL_IN10, [], [F.PTP_CAL_IN10_VALUE]⟩,
   ⟨R.PTP_CAL_EG10, [], [F.PTP_CAL_EG10_VALUE]⟩,
   ⟨R.PTP_CAL_IN25, [], [F.PTP_CAL_IN25_VALUE]⟩,
   ⟨R.PTP_CAL_EG25, [], [F.PTP_CAL_EG25_VALUE]⟩,
   ⟨R.PTP_ASYM, [], [F.PTP_ASYM_ASYM]⟩,
   ⟨R.PTP_OFS, [], [F.PTP_OFS_OFS]⟩,
   ⟨R.PTP_MPD, [], [F.PTP_MPD_MPD]⟩,
   ⟨R.PTP_TXTS_HEAD, [], [F.PTP_TXTS_HEAD_VALID, F.PTP_TXTS_HEAD_LEVEL, F.PTP_TXTS_HEAD_ID]⟩,
   ⟨R.PTP_TXTS_NS, [], [F.PTP_TXTS_NS_NS]⟩,
   ⟨R.PTP_TXTS_POP, [], [F.PTP_TXTS_POP_POP]⟩,
   ⟨R.PTP_ERRLOG, [], [F.PTP_ERRLOG_CODE, F.PTP_ERRLOG_MSGTYPE, F.PTP_ERRLOG_SEQ]⟩,
   ⟨R.PTP_ERRTIME, [], [F.PTP_ERRTIME_NS]⟩,
   ⟨R.PTP_CNT_MALFORMED, [], [F.PTP_CNT_MALFORMED_V]⟩,
   ⟨R.PTP_CNT_DOMAIN, [], [F.PTP_CNT_DOMAIN_V]⟩,
   ⟨R.PTP_CNT_ANN_BAD, [], [F.PTP_CNT_ANN_BAD_V]⟩,
   ⟨R.PTP_CNT_STEP, [], [F.PTP_CNT_STEP_V]⟩,
   ⟨R.PTP_CNT_FU_MISSING, [], [F.PTP_CNT_FU_MISSING_V]⟩,
   ⟨R.PTP_CNT_FU_ORPHAN, [], [F.PTP_CNT_FU_ORPHAN_V]⟩,
   ⟨R.PTP_CNT_DRESP_MISSING, [], [F.PTP_CNT_DRESP_MISSING_V]⟩,
   ⟨R.PTP_CNT_PD_BAD, [], [F.PTP_CNT_PD_BAD_V]⟩,
   ⟨R.PTP_CNT_MULTI_RESP, [], [F.PTP_CNT_MULTI_RESP_V]⟩,
   ⟨R.PTP_CNT_RXQ_DROP, [], [F.PTP_CNT_RXQ_DROP_V]⟩,
   ⟨R.PTP_CNT_TXTS_DROP, [], [F.PTP_CNT_TXTS_DROP_V]⟩,
   ⟨R.PTP_TIME_NS, [.latch], [F.PTP_TIME_NS_V]⟩,
   ⟨R.PTP_TIME_SL, [], [F.PTP_TIME_SL_V]⟩,
   ⟨R.PTP_TIME_SH, [], [F.PTP_TIME_SH_V]⟩,
   ⟨R.PTP_ACQ_LO, [], [F.PTP_ACQ_LO_V]⟩,
   ⟨R.PTP_ACQ_HI, [], [F.PTP_ACQ_HI_V]⟩,
   ⟨R.PTP_REACQ, [], [F.PTP_REACQ_GO]⟩]

/-! ## STR (R87 to R108) -/

/-- STR_CTRL -/
def R.STR_CTRL : Reg := ⟨1572864, [], 48, .plain⟩
def F.STR_CTRL_STALE : Field := ⟨R.STR_CTRL, 7, 0, .rw, .i, some (1, 255)⟩
/-- STR_STAT -/
def R.STR_STAT : Reg := ⟨1572868, [], 0, .plain⟩
def F.STR_STAT_TX_CH : Field := ⟨R.STR_STAT, 26, 16, .ro, .o, none⟩
def F.STR_STAT_RX_CH : Field := ⟨R.STR_STAT, 11, 0, .ro, .o, none⟩
/-- STR_EVT -/
def R.STR_EVT : Reg := ⟨1572872, [], 0, .plain⟩
def F.STR_EVT_TX_DOWN : Field := ⟨R.STR_EVT, 11, 11, .w1c, .o, none⟩
def F.STR_EVT_TX_LATE : Field := ⟨R.STR_EVT, 10, 10, .w1c, .o, none⟩
def F.STR_EVT_STARVED : Field := ⟨R.STR_EVT, 9, 9, .w1c, .o, none⟩
def F.STR_EVT_UNDERRUN : Field := ⟨R.STR_EVT, 8, 8, .w1c, .o, none⟩
def F.STR_EVT_DISC : Field := ⟨R.STR_EVT, 7, 7, .w1c, .o, none⟩
def F.STR_EVT_CHANNELS : Field := ⟨R.STR_EVT, 6, 6, .w1c, .o, none⟩
def F.STR_EVT_FORMAT : Field := ⟨R.STR_EVT, 5, 5, .w1c, .o, none⟩
def F.STR_EVT_FAR : Field := ⟨R.STR_EVT, 4, 4, .w1c, .o, none⟩
def F.STR_EVT_EARLY : Field := ⟨R.STR_EVT, 3, 3, .w1c, .o, none⟩
def F.STR_EVT_LATE : Field := ⟨R.STR_EVT, 2, 2, .w1c, .o, none⟩
def F.STR_EVT_DUP : Field := ⟨R.STR_EVT, 1, 1, .w1c, .o, none⟩
def F.STR_EVT_SEQ_GAP : Field := ⟨R.STR_EVT, 0, 0, .w1c, .o, none⟩
/-- STR_EVTEN -/
def R.STR_EVTEN : Reg := ⟨1572876, [], 0, .plain⟩
def F.STR_EVTEN_TX_DOWN : Field := ⟨R.STR_EVTEN, 11, 11, .rw, .i, none⟩
def F.STR_EVTEN_TX_LATE : Field := ⟨R.STR_EVTEN, 10, 10, .rw, .i, none⟩
def F.STR_EVTEN_STARVED : Field := ⟨R.STR_EVTEN, 9, 9, .rw, .i, none⟩
def F.STR_EVTEN_UNDERRUN : Field := ⟨R.STR_EVTEN, 8, 8, .rw, .i, none⟩
def F.STR_EVTEN_DISC : Field := ⟨R.STR_EVTEN, 7, 7, .rw, .i, none⟩
def F.STR_EVTEN_CHANNELS : Field := ⟨R.STR_EVTEN, 6, 6, .rw, .i, none⟩
def F.STR_EVTEN_FORMAT : Field := ⟨R.STR_EVTEN, 5, 5, .rw, .i, none⟩
def F.STR_EVTEN_FAR : Field := ⟨R.STR_EVTEN, 4, 4, .rw, .i, none⟩
def F.STR_EVTEN_EARLY : Field := ⟨R.STR_EVTEN, 3, 3, .rw, .i, none⟩
def F.STR_EVTEN_LATE : Field := ⟨R.STR_EVTEN, 2, 2, .rw, .i, none⟩
def F.STR_EVTEN_DUP : Field := ⟨R.STR_EVTEN, 1, 1, .rw, .i, none⟩
def F.STR_EVTEN_SEQ_GAP : Field := ⟨R.STR_EVTEN, 0, 0, .rw, .i, none⟩
/-- STR_ERRLOG -/
def R.STR_ERRLOG : Reg := ⟨1572880, [], 0, .plain⟩
def F.STR_ERRLOG_CODE : Field := ⟨R.STR_ERRLOG, 31, 24, .ro, .o, none⟩
def F.STR_ERRLOG_TX : Field := ⟨R.STR_ERRLOG, 23, 23, .ro, .o, none⟩
def F.STR_ERRLOG_CTX : Field := ⟨R.STR_ERRLOG, 7, 0, .ro, .o, none⟩
/-- STR_ERRSEQ -/
def R.STR_ERRSEQ : Reg := ⟨1572884, [], 0, .plain⟩
def F.STR_ERRSEQ_SEQ : Field := ⟨R.STR_ERRSEQ, 15, 0, .ro, .o, none⟩
/-- STR_ERRTIME -/
def R.STR_ERRTIME : Reg := ⟨1572888, [], 0, .plain⟩
def F.STR_ERRTIME_NS : Field := ⟨R.STR_ERRTIME, 31, 0, .ro, .o, none⟩
/-- STR_RXPENDk -/
def R.STR_RXPENDk : Reg := ⟨1572928, [(8, 4)], 0, .plain⟩
def F.STR_RXPENDk_V : Field := ⟨R.STR_RXPENDk, 31, 0, .ro, .o, none⟩
/-- STR_TXPENDk -/
def R.STR_TXPENDk : Reg := ⟨1572960, [(8, 4)], 0, .plain⟩
def F.STR_TXPENDk_V : Field := ⟨R.STR_TXPENDk, 31, 0, .ro, .o, none⟩
/-- STR_GRPg -/
def R.STR_GRPg : Reg := ⟨1573376, [(16, 4)], 0, .plain⟩
def F.STR_GRPg_MEMBERS : Field := ⟨R.STR_GRPg, 31, 23, .ro, .o, none⟩
def F.STR_GRPg_DELAY : Field := ⟨R.STR_GRPg, 15, 0, .ro, .o, none⟩
/-- STR_TXSLOTs -/
def R.STR_TXSLOTs : Reg := ⟨1646592, [(1024, 4)], 0, .plain⟩
def F.STR_TXSLOTs_EN : Field := ⟨R.STR_TXSLOTs, 31, 31, .rw, .i, none⟩
def F.STR_TXSLOTs_BUS : Field := ⟨R.STR_TXSLOTs, 8, 0, .rw, .i, none⟩

/-- The STR registers. -/
def regTableStr : List RegEntry :=
  [⟨R.STR_CTRL, [], [F.STR_CTRL_STALE]⟩,
   ⟨R.STR_STAT, [], [F.STR_STAT_TX_CH, F.STR_STAT_RX_CH]⟩,
   ⟨R.STR_EVT, [.evt], [F.STR_EVT_TX_DOWN, F.STR_EVT_TX_LATE, F.STR_EVT_STARVED, F.STR_EVT_UNDERRUN, F.STR_EVT_DISC, F.STR_EVT_CHANNELS, F.STR_EVT_FORMAT, F.STR_EVT_FAR, F.STR_EVT_EARLY, F.STR_EVT_LATE, F.STR_EVT_DUP, F.STR_EVT_SEQ_GAP]⟩,
   ⟨R.STR_EVTEN, [], [F.STR_EVTEN_TX_DOWN, F.STR_EVTEN_TX_LATE, F.STR_EVTEN_STARVED, F.STR_EVTEN_UNDERRUN, F.STR_EVTEN_DISC, F.STR_EVTEN_CHANNELS, F.STR_EVTEN_FORMAT, F.STR_EVTEN_FAR, F.STR_EVTEN_EARLY, F.STR_EVTEN_LATE, F.STR_EVTEN_DUP, F.STR_EVTEN_SEQ_GAP]⟩,
   ⟨R.STR_ERRLOG, [], [F.STR_ERRLOG_CODE, F.STR_ERRLOG_TX, F.STR_ERRLOG_CTX]⟩,
   ⟨R.STR_ERRSEQ, [], [F.STR_ERRSEQ_SEQ]⟩,
   ⟨R.STR_ERRTIME, [], [F.STR_ERRTIME_NS]⟩,
   ⟨R.STR_RXPENDk, [], [F.STR_RXPENDk_V]⟩,
   ⟨R.STR_TXPENDk, [], [F.STR_TXPENDk_V]⟩,
   ⟨R.STR_GRPg, [], [F.STR_GRPg_MEMBERS, F.STR_GRPg_DELAY]⟩,
   ⟨R.STR_TXSLOTs, [.safe], [F.STR_TXSLOTs_EN, F.STR_TXSLOTs_BUS]⟩]

/-! ## RXn (R87 to R98) -/

/-- RXn_CFG -/
def R.RXn_CFG : Reg := ⟨1576960, [(256, 128)], 0, .plain⟩
def F.RXn_CFG_EN : Field := ⟨R.RXn_CFG, 31, 31, .rw, .i, none⟩
def F.RXn_CFG_PROTO : Field := ⟨R.RXn_CFG, 30, 30, .rw, .i, none⟩
def F.RXn_CFG_PORTS : Field := ⟨R.RXn_CFG, 29, 28, .rw, .i, none⟩
def F.RXn_CFG_FMT : Field := ⟨R.RXn_CFG, 27, 26, .rw, .i, none⟩
def F.RXn_CFG_RATE : Field := ⟨R.RXn_CFG, 25, 22, .rw, .i, none⟩
def F.RXn_CFG_CH_M1 : Field := ⟨R.RXn_CFG, 21, 16, .rw, .i, none⟩
def F.RXn_CFG_GRP_EN : Field := ⟨R.RXn_CFG, 12, 12, .rw, .i, none⟩
def F.RXn_CFG_GRP : Field := ⟨R.RXn_CFG, 11, 8, .rw, .i, none⟩
/-- RXn_ID_LO -/
def R.RXn_ID_LO : Reg := ⟨1576964, [(256, 128)], 0, .plain⟩
def F.RXn_ID_LO_V : Field := ⟨R.RXn_ID_LO, 31, 0, .rw, .i, none⟩
/-- RXn_ID_HI -/
def R.RXn_ID_HI : Reg := ⟨1576968, [(256, 128)], 0, .plain⟩
def F.RXn_ID_HI_V : Field := ⟨R.RXn_ID_HI, 31, 0, .rw, .i, none⟩
/-- RXn_DST_IP -/
def R.RXn_DST_IP : Reg := ⟨1576972, [(256, 128)], 0, .plain⟩
def F.RXn_DST_IP_V : Field := ⟨R.RXn_DST_IP, 31, 0, .rw, .i, none⟩
/-- RXn_MATCH -/
def R.RXn_MATCH : Reg := ⟨1576976, [(256, 128)], 0, .plain⟩
def F.RXn_MATCH_TAGGED : Field := ⟨R.RXn_MATCH, 28, 28, .rw, .i, none⟩
def F.RXn_MATCH_VID : Field := ⟨R.RXn_MATCH, 27, 16, .rw, .i, none⟩
def F.RXn_MATCH_UDP : Field := ⟨R.RXn_MATCH, 15, 0, .rw, .i, none⟩
/-- RXn_SRC_IP -/
def R.RXn_SRC_IP : Reg := ⟨1576980, [(256, 128)], 0, .plain⟩
def F.RXn_SRC_IP_V : Field := ⟨R.RXn_SRC_IP, 31, 0, .rw, .i, none⟩
/-- RXn_MAP -/
def R.RXn_MAP : Reg := ⟨1576984, [(256, 128)], 0, .plain⟩
def F.RXn_MAP_BASE : Field := ⟨R.RXn_MAP, 10, 0, .rw, .i, none⟩
/-- RXn_MASK_LO -/
def R.RXn_MASK_LO : Reg := ⟨1576988, [(256, 128)], 0, .plain⟩
def F.RXn_MASK_LO_V : Field := ⟨R.RXn_MASK_LO, 31, 0, .rw, .i, none⟩
/-- RXn_MASK_HI -/
def R.RXn_MASK_HI : Reg := ⟨1576992, [(256, 128)], 0, .plain⟩
def F.RXn_MASK_HI_V : Field := ⟨R.RXn_MASK_HI, 31, 0, .rw, .i, none⟩
/-- RXn_PRES_OFS -/
def R.RXn_PRES_OFS : Reg := ⟨1576996, [(256, 128)], 0, .plain⟩
def F.RXn_PRES_OFS_V : Field := ⟨R.RXn_PRES_OFS, 31, 0, .rw, .i, none⟩
/-- RXn_RTP_OFS -/
def R.RXn_RTP_OFS : Reg := ⟨1577000, [(256, 128)], 0, .plain⟩
def F.RXn_RTP_OFS_V : Field := ⟨R.RXn_RTP_OFS, 31, 0, .rw, .i, none⟩
/-- RXn_TIMING -/
def R.RXn_TIMING : Reg := ⟨1577004, [(256, 128)], 327696, .plain⟩
def F.RXn_TIMING_XFADE : Field := ⟨R.RXn_TIMING, 25, 16, .rw, .i, some (0, 1000)⟩
def F.RXn_TIMING_DEPTH : Field := ⟨R.RXn_TIMING, 9, 0, .rw, .i, some (1, 1023)⟩
/-- RXn_STAT -/
def R.RXn_STAT : Reg := ⟨1577008, [(256, 128)], 0, .plain⟩
def F.RXn_STAT_STICKY : Field := ⟨R.RXn_STAT, 17, 8, .w1c, .o, none⟩
def F.RXn_STAT_FADING : Field := ⟨R.RXn_STAT, 3, 3, .ro, .o, none⟩
def F.RXn_STAT_STATE : Field := ⟨R.RXn_STAT, 2, 0, .ro, .o, none⟩
/-- RXn_CNT_PKTS -/
def R.RXn_CNT_PKTS : Reg := ⟨1577024, [(256, 128)], 0, .plain⟩
def F.RXn_CNT_PKTS_V : Field := ⟨R.RXn_CNT_PKTS, 31, 0, .ro, .o, none⟩
/-- RXn_CNT_SEQ_GAP -/
def R.RXn_CNT_SEQ_GAP : Reg := ⟨1577028, [(256, 128)], 0, .plain⟩
def F.RXn_CNT_SEQ_GAP_V : Field := ⟨R.RXn_CNT_SEQ_GAP, 31, 0, .ro, .o, none⟩
/-- RXn_CNT_DUP -/
def R.RXn_CNT_DUP : Reg := ⟨1577032, [(256, 128)], 0, .plain⟩
def F.RXn_CNT_DUP_V : Field := ⟨R.RXn_CNT_DUP, 31, 0, .ro, .o, none⟩
/-- RXn_CNT_REORDER -/
def R.RXn_CNT_REORDER : Reg := ⟨1577036, [(256, 128)], 0, .plain⟩
def F.RXn_CNT_REORDER_V : Field := ⟨R.RXn_CNT_REORDER, 31, 0, .ro, .o, none⟩
/-- RXn_CNT_LATE -/
def R.RXn_CNT_LATE : Reg := ⟨1577040, [(256, 128)], 0, .plain⟩
def F.RXn_CNT_LATE_V : Field := ⟨R.RXn_CNT_LATE, 31, 0, .ro, .o, none⟩
/-- RXn_CNT_LATE_SAMP -/
def R.RXn_CNT_LATE_SAMP : Reg := ⟨1577044, [(256, 128)], 0, .plain⟩
def F.RXn_CNT_LATE_SAMP_V : Field := ⟨R.RXn_CNT_LATE_SAMP, 31, 0, .ro, .o, none⟩
/-- RXn_CNT_EARLY -/
def R.RXn_CNT_EARLY : Reg := ⟨1577048, [(256, 128)], 0, .plain⟩
def F.RXn_CNT_EARLY_V : Field := ⟨R.RXn_CNT_EARLY, 31, 0, .ro, .o, none⟩
/-- RXn_CNT_FAR -/
def R.RXn_CNT_FAR : Reg := ⟨1577052, [(256, 128)], 0, .plain⟩
def F.RXn_CNT_FAR_V : Field := ⟨R.RXn_CNT_FAR, 31, 0, .ro, .o, none⟩
/-- RXn_CNT_FORMAT -/
def R.RXn_CNT_FORMAT : Reg := ⟨1577056, [(256, 128)], 0, .plain⟩
def F.RXn_CNT_FORMAT_V : Field := ⟨R.RXn_CNT_FORMAT, 31, 0, .ro, .o, none⟩
/-- RXn_CNT_CHANNELS -/
def R.RXn_CNT_CHANNELS : Reg := ⟨1577060, [(256, 128)], 0, .plain⟩
def F.RXn_CNT_CHANNELS_V : Field := ⟨R.RXn_CNT_CHANNELS, 31, 0, .ro, .o, none⟩
/-- RXn_CNT_DISC -/
def R.RXn_CNT_DISC : Reg := ⟨1577064, [(256, 128)], 0, .plain⟩
def F.RXn_CNT_DISC_V : Field := ⟨R.RXn_CNT_DISC, 31, 0, .ro, .o, none⟩
/-- RXn_CNT_UNDERRUN -/
def R.RXn_CNT_UNDERRUN : Reg := ⟨1577068, [(256, 128)], 0, .plain⟩
def F.RXn_CNT_UNDERRUN_V : Field := ⟨R.RXn_CNT_UNDERRUN, 31, 0, .ro, .o, none⟩
/-- RXn_CNT_STARVE -/
def R.RXn_CNT_STARVE : Reg := ⟨1577072, [(256, 128)], 0, .plain⟩
def F.RXn_CNT_STARVE_V : Field := ⟨R.RXn_CNT_STARVE, 31, 0, .ro, .o, none⟩

/-- The RXn registers. -/
def regTableRxCtx : List RegEntry :=
  [⟨R.RXn_CFG, [.safe], [F.RXn_CFG_EN, F.RXn_CFG_PROTO, F.RXn_CFG_PORTS, F.RXn_CFG_FMT, F.RXn_CFG_RATE, F.RXn_CFG_CH_M1, F.RXn_CFG_GRP_EN, F.RXn_CFG_GRP]⟩,
   ⟨R.RXn_ID_LO, [.safe], [F.RXn_ID_LO_V]⟩,
   ⟨R.RXn_ID_HI, [.safe], [F.RXn_ID_HI_V]⟩,
   ⟨R.RXn_DST_IP, [.safe], [F.RXn_DST_IP_V]⟩,
   ⟨R.RXn_MATCH, [.safe], [F.RXn_MATCH_TAGGED, F.RXn_MATCH_VID, F.RXn_MATCH_UDP]⟩,
   ⟨R.RXn_SRC_IP, [.safe], [F.RXn_SRC_IP_V]⟩,
   ⟨R.RXn_MAP, [.safe], [F.RXn_MAP_BASE]⟩,
   ⟨R.RXn_MASK_LO, [.safe], [F.RXn_MASK_LO_V]⟩,
   ⟨R.RXn_MASK_HI, [.safe], [F.RXn_MASK_HI_V]⟩,
   ⟨R.RXn_PRES_OFS, [.safe], [F.RXn_PRES_OFS_V]⟩,
   ⟨R.RXn_RTP_OFS, [.safe], [F.RXn_RTP_OFS_V]⟩,
   ⟨R.RXn_TIMING, [.safe], [F.RXn_TIMING_XFADE, F.RXn_TIMING_DEPTH]⟩,
   ⟨R.RXn_STAT, [], [F.RXn_STAT_STICKY, F.RXn_STAT_FADING, F.RXn_STAT_STATE]⟩,
   ⟨R.RXn_CNT_PKTS, [], [F.RXn_CNT_PKTS_V]⟩,
   ⟨R.RXn_CNT_SEQ_GAP, [], [F.RXn_CNT_SEQ_GAP_V]⟩,
   ⟨R.RXn_CNT_DUP, [], [F.RXn_CNT_DUP_V]⟩,
   ⟨R.RXn_CNT_REORDER, [], [F.RXn_CNT_REORDER_V]⟩,
   ⟨R.RXn_CNT_LATE, [], [F.RXn_CNT_LATE_V]⟩,
   ⟨R.RXn_CNT_LATE_SAMP, [], [F.RXn_CNT_LATE_SAMP_V]⟩,
   ⟨R.RXn_CNT_EARLY, [], [F.RXn_CNT_EARLY_V]⟩,
   ⟨R.RXn_CNT_FAR, [], [F.RXn_CNT_FAR_V]⟩,
   ⟨R.RXn_CNT_FORMAT, [], [F.RXn_CNT_FORMAT_V]⟩,
   ⟨R.RXn_CNT_CHANNELS, [], [F.RXn_CNT_CHANNELS_V]⟩,
   ⟨R.RXn_CNT_DISC, [], [F.RXn_CNT_DISC_V]⟩,
   ⟨R.RXn_CNT_UNDERRUN, [], [F.RXn_CNT_UNDERRUN_V]⟩,
   ⟨R.RXn_CNT_STARVE, [], [F.RXn_CNT_STARVE_V]⟩]

/-! ## TXn (R99 to R108) -/

/-- TXn_CFG -/
def R.TXn_CFG : Reg := ⟨1609728, [(256, 128)], 11776, .plain⟩
def F.TXn_CFG_EN : Field := ⟨R.TXn_CFG, 31, 31, .rw, .i, none⟩
def F.TXn_CFG_PROTO : Field := ⟨R.TXn_CFG, 30, 30, .rw, .i, none⟩
def F.TXn_CFG_PORTS : Field := ⟨R.TXn_CFG, 29, 28, .rw, .i, none⟩
def F.TXn_CFG_FMT : Field := ⟨R.TXn_CFG, 27, 26, .rw, .i, none⟩
def F.TXn_CFG_RATE : Field := ⟨R.TXn_CFG, 25, 22, .rw, .i, none⟩
def F.TXn_CFG_CH_M1 : Field := ⟨R.TXn_CFG, 21, 16, .rw, .i, none⟩
def F.TXn_CFG_CLASS : Field := ⟨R.TXn_CFG, 15, 14, .rw, .i, none⟩
def F.TXn_CFG_DSCP : Field := ⟨R.TXn_CFG, 13, 8, .rw, .i, none⟩
def F.TXn_CFG_PKT_M1 : Field := ⟨R.TXn_CFG, 7, 0, .rw, .i, none⟩
/-- TXn_ID_LO -/
def R.TXn_ID_LO : Reg := ⟨1609732, [(256, 128)], 0, .plain⟩
def F.TXn_ID_LO_V : Field := ⟨R.TXn_ID_LO, 31, 0, .rw, .i, none⟩
/-- TXn_ID_HI -/
def R.TXn_ID_HI : Reg := ⟨1609736, [(256, 128)], 0, .plain⟩
def F.TXn_ID_HI_V : Field := ⟨R.TXn_ID_HI, 31, 0, .rw, .i, none⟩
/-- TXn_DST_IP_A -/
def R.TXn_DST_IP_A : Reg := ⟨1609740, [(256, 128)], 0, .plain⟩
def F.TXn_DST_IP_A_V : Field := ⟨R.TXn_DST_IP_A, 31, 0, .rw, .i, none⟩
/-- TXn_DST_IP_B -/
def R.TXn_DST_IP_B : Reg := ⟨1609744, [(256, 128)], 0, .plain⟩
def F.TXn_DST_IP_B_V : Field := ⟨R.TXn_DST_IP_B, 31, 0, .rw, .i, none⟩
/-- TXn_DMAC_LO -/
def R.TXn_DMAC_LO : Reg := ⟨1609748, [(256, 128)], 0, .plain⟩
def F.TXn_DMAC_LO_V : Field := ⟨R.TXn_DMAC_LO, 31, 0, .rw, .i, none⟩
/-- TXn_DMAC_HI -/
def R.TXn_DMAC_HI : Reg := ⟨1609752, [(256, 128)], 0, .plain⟩
def F.TXn_DMAC_HI_V : Field := ⟨R.TXn_DMAC_HI, 15, 0, .rw, .i, none⟩
/-- TXn_UDP -/
def R.TXn_UDP : Reg := ⟨1609756, [(256, 128)], 0, .plain⟩
def F.TXn_UDP_SRC : Field := ⟨R.TXn_UDP, 31, 16, .rw, .i, none⟩
def F.TXn_UDP_DST : Field := ⟨R.TXn_UDP, 15, 0, .rw, .i, none⟩
/-- TXn_VLAN -/
def R.TXn_VLAN : Reg := ⟨1609760, [(256, 128)], 0, .plain⟩
def F.TXn_VLAN_INS : Field := ⟨R.TXn_VLAN, 31, 31, .rw, .i, none⟩
def F.TXn_VLAN_PCP : Field := ⟨R.TXn_VLAN, 15, 13, .rw, .i, none⟩
def F.TXn_VLAN_VID : Field := ⟨R.TXn_VLAN, 11, 0, .rw, .i, none⟩
/-- TXn_SLOT -/
def R.TXn_SLOT : Reg := ⟨1609764, [(256, 128)], 0, .plain⟩
def F.TXn_SLOT_BASE : Field := ⟨R.TXn_SLOT, 9, 0, .rw, .i, none⟩
/-- TXn_TX_OFS -/
def R.TXn_TX_OFS : Reg := ⟨1609768, [(256, 128)], 0, .plain⟩
def F.TXn_TX_OFS_V : Field := ⟨R.TXn_TX_OFS, 31, 0, .rw, .i, none⟩
/-- TXn_RTP_OFS -/
def R.TXn_RTP_OFS : Reg := ⟨1609772, [(256, 128)], 0, .plain⟩
def F.TXn_RTP_OFS_V : Field := ⟨R.TXn_RTP_OFS, 31, 0, .rw, .i, none⟩
/-- TXn_SEQ_OFS -/
def R.TXn_SEQ_OFS : Reg := ⟨1609776, [(256, 128)], 0, .plain⟩
def F.TXn_SEQ_OFS_V : Field := ⟨R.TXn_SEQ_OFS, 15, 0, .rw, .i, none⟩
/-- TXn_XFADE -/
def R.TXn_XFADE : Reg := ⟨1609780, [(256, 128)], 5, .plain⟩
def F.TXn_XFADE_XFADE : Field := ⟨R.TXn_XFADE, 9, 0, .rw, .i, some (0, 1000)⟩
/-- TXn_STAT -/
def R.TXn_STAT : Reg := ⟨1609784, [(256, 128)], 0, .plain⟩
def F.TXn_STAT_ACTIVE : Field := ⟨R.TXn_STAT, 5, 5, .ro, .o, none⟩
def F.TXn_STAT_FADING : Field := ⟨R.TXn_STAT, 4, 4, .ro, .o, none⟩
def F.TXn_STAT_STICKY_DOWN : Field := ⟨R.TXn_STAT, 1, 1, .w1c, .o, none⟩
def F.TXn_STAT_STICKY_LATE : Field := ⟨R.TXn_STAT, 0, 0, .w1c, .o, none⟩
/-- TXn_CNT_PKTS -/
def R.TXn_CNT_PKTS : Reg := ⟨1609792, [(256, 128)], 0, .plain⟩
def F.TXn_CNT_PKTS_V : Field := ⟨R.TXn_CNT_PKTS, 31, 0, .ro, .o, none⟩
/-- TXn_CNT_TX_LATE -/
def R.TXn_CNT_TX_LATE : Reg := ⟨1609796, [(256, 128)], 0, .plain⟩
def F.TXn_CNT_TX_LATE_V : Field := ⟨R.TXn_CNT_TX_LATE, 31, 0, .ro, .o, none⟩
/-- TXn_CNT_TX_DOWN -/
def R.TXn_CNT_TX_DOWN : Reg := ⟨1609800, [(256, 128)], 0, .plain⟩
def F.TXn_CNT_TX_DOWN_V : Field := ⟨R.TXn_CNT_TX_DOWN, 31, 0, .ro, .o, none⟩

/-- The TXn registers. -/
def regTableTxCtx : List RegEntry :=
  [⟨R.TXn_CFG, [.safe], [F.TXn_CFG_EN, F.TXn_CFG_PROTO, F.TXn_CFG_PORTS, F.TXn_CFG_FMT, F.TXn_CFG_RATE, F.TXn_CFG_CH_M1, F.TXn_CFG_CLASS, F.TXn_CFG_DSCP, F.TXn_CFG_PKT_M1]⟩,
   ⟨R.TXn_ID_LO, [.safe], [F.TXn_ID_LO_V]⟩,
   ⟨R.TXn_ID_HI, [.safe], [F.TXn_ID_HI_V]⟩,
   ⟨R.TXn_DST_IP_A, [.safe], [F.TXn_DST_IP_A_V]⟩,
   ⟨R.TXn_DST_IP_B, [.safe], [F.TXn_DST_IP_B_V]⟩,
   ⟨R.TXn_DMAC_LO, [.safe], [F.TXn_DMAC_LO_V]⟩,
   ⟨R.TXn_DMAC_HI, [.safe], [F.TXn_DMAC_HI_V]⟩,
   ⟨R.TXn_UDP, [.safe], [F.TXn_UDP_SRC, F.TXn_UDP_DST]⟩,
   ⟨R.TXn_VLAN, [.safe], [F.TXn_VLAN_INS, F.TXn_VLAN_PCP, F.TXn_VLAN_VID]⟩,
   ⟨R.TXn_SLOT, [.safe], [F.TXn_SLOT_BASE]⟩,
   ⟨R.TXn_TX_OFS, [.safe], [F.TXn_TX_OFS_V]⟩,
   ⟨R.TXn_RTP_OFS, [.safe], [F.TXn_RTP_OFS_V]⟩,
   ⟨R.TXn_SEQ_OFS, [.safe], [F.TXn_SEQ_OFS_V]⟩,
   ⟨R.TXn_XFADE, [.safe], [F.TXn_XFADE_XFADE]⟩,
   ⟨R.TXn_STAT, [], [F.TXn_STAT_ACTIVE, F.TXn_STAT_FADING, F.TXn_STAT_STICKY_DOWN, F.TXn_STAT_STICKY_LATE]⟩,
   ⟨R.TXn_CNT_PKTS, [], [F.TXn_CNT_PKTS_V]⟩,
   ⟨R.TXn_CNT_TX_LATE, [], [F.TXn_CNT_TX_LATE_V]⟩,
   ⟨R.TXn_CNT_TX_DOWN, [], [F.TXn_CNT_TX_DOWN_V]⟩]

/-! ## OSP (R109 to R141) -/

/-- OSP_CTRL -/
def R.OSP_CTRL : Reg := ⟨1835008, [], 7420, .plain⟩
def F.OSP_CTRL_EN : Field := ⟨R.OSP_CTRL, 31, 31, .rw, .i, none⟩
def F.OSP_CTRL_PORTS : Field := ⟨R.OSP_CTRL, 17, 16, .rw, .i, none⟩
def F.OSP_CTRL_UDP : Field := ⟨R.OSP_CTRL, 15, 0, .rw, .i, none⟩
/-- OSP_STAT -/
def R.OSP_STAT : Reg := ⟨1835012, [], 0, .plain⟩
def F.OSP_STAT_SESSIONS : Field := ⟨R.OSP_STAT, 23, 20, .ro, .o, none⟩
def F.OSP_STAT_PEND : Field := ⟨R.OSP_STAT, 16, 0, .ro, .o, none⟩
/-- OSP_EVT -/
def R.OSP_EVT : Reg := ⟨1835016, [], 0, .plain⟩
def F.OSP_EVT_TIMEOUT : Field := ⟨R.OSP_EVT, 7, 7, .w1c, .o, none⟩
def F.OSP_EVT_LOST : Field := ⟨R.OSP_EVT, 6, 6, .w1c, .o, none⟩
def F.OSP_EVT_STORE_FULL : Field := ⟨R.OSP_EVT, 5, 5, .w1c, .o, none⟩
def F.OSP_EVT_LATE : Field := ⟨R.OSP_EVT, 4, 4, .w1c, .o, none⟩
def F.OSP_EVT_ERR_SENT : Field := ⟨R.OSP_EVT, 3, 3, .w1c, .o, none⟩
def F.OSP_EVT_AUTH_FAIL : Field := ⟨R.OSP_EVT, 2, 2, .w1c, .o, none⟩
def F.OSP_EVT_CLOSE : Field := ⟨R.OSP_EVT, 1, 1, .w1c, .o, none⟩
def F.OSP_EVT_OPEN : Field := ⟨R.OSP_EVT, 0, 0, .w1c, .o, none⟩
/-- OSP_EVTEN -/
def R.OSP_EVTEN : Reg := ⟨1835020, [], 0, .plain⟩
def F.OSP_EVTEN_TIMEOUT : Field := ⟨R.OSP_EVTEN, 7, 7, .rw, .i, none⟩
def F.OSP_EVTEN_LOST : Field := ⟨R.OSP_EVTEN, 6, 6, .rw, .i, none⟩
def F.OSP_EVTEN_STORE_FULL : Field := ⟨R.OSP_EVTEN, 5, 5, .rw, .i, none⟩
def F.OSP_EVTEN_LATE : Field := ⟨R.OSP_EVTEN, 4, 4, .rw, .i, none⟩
def F.OSP_EVTEN_ERR_SENT : Field := ⟨R.OSP_EVTEN, 3, 3, .rw, .i, none⟩
def F.OSP_EVTEN_AUTH_FAIL : Field := ⟨R.OSP_EVTEN, 2, 2, .rw, .i, none⟩
def F.OSP_EVTEN_CLOSE : Field := ⟨R.OSP_EVTEN, 1, 1, .rw, .i, none⟩
def F.OSP_EVTEN_OPEN : Field := ⟨R.OSP_EVTEN, 0, 0, .rw, .i, none⟩
/-- OSP_RATE -/
def R.OSP_RATE : Reg := ⟨1835024, [], 96000, .plain⟩
def F.OSP_RATE_RATE : Field := ⟨R.OSP_RATE, 18, 0, .rw, .i, some (1000, 393216)⟩
/-- OSP_BURST -/
def R.OSP_BURST : Reg := ⟨1835028, [], 536872960, .plain⟩
def F.OSP_BURST_PEND : Field := ⟨R.OSP_BURST, 31, 16, .rw, .i, some (256, 65535)⟩
def F.OSP_BURST_BURST : Field := ⟨R.OSP_BURST, 15, 0, .rw, .i, some (45, 65535)⟩
/-- OSP_TIMERS -/
def R.OSP_TIMERS : Reg := ⟨1835032, [], 13109200, .plain⟩
def F.OSP_TIMERS_GIVEUP : Field := ⟨R.OSP_TIMERS, 31, 16, .rw, .i, some (10, 5000)⟩
def F.OSP_TIMERS_BATCHMAX : Field := ⟨R.OSP_TIMERS, 15, 0, .rw, .i, some (100, 10000)⟩
/-- OSP_BACKLOG -/
def R.OSP_BACKLOG : Reg := ⟨1835036, [], 0, .plain⟩
def F.OSP_BACKLOG_WAIT : Field := ⟨R.OSP_BACKLOG, 16, 0, .ro, .o, none⟩
/-- OSP_ERRLOG -/
def R.OSP_ERRLOG : Reg := ⟨1835040, [], 0, .plain⟩
def F.OSP_ERRLOG_CODE : Field := ⟨R.OSP_ERRLOG, 31, 24, .ro, .o, none⟩
def F.OSP_ERRLOG_SOURCE : Field := ⟨R.OSP_ERRLOG, 23, 20, .ro, .o, none⟩
def F.OSP_ERRLOG_OBJ : Field := ⟨R.OSP_ERRLOG, 15, 0, .ro, .o, none⟩
/-- OSP_ERRSEQ -/
def R.OSP_ERRSEQ : Reg := ⟨1835044, [], 0, .plain⟩
def F.OSP_ERRSEQ_V : Field := ⟨R.OSP_ERRSEQ, 31, 0, .ro, .o, none⟩
/-- OSP_ERRTIME -/
def R.OSP_ERRTIME : Reg := ⟨1835048, [], 0, .plain⟩
def F.OSP_ERRTIME_V : Field := ⟨R.OSP_ERRTIME, 31, 0, .ro, .o, none⟩
/-- OSP_CNT_AUTH_FAIL -/
def R.OSP_CNT_AUTH_FAIL : Reg := ⟨1835136, [], 0, .plain⟩
def F.OSP_CNT_AUTH_FAIL_V : Field := ⟨R.OSP_CNT_AUTH_FAIL, 31, 0, .ro, .o, none⟩
/-- OSP_CNT_NO_SESSION -/
def R.OSP_CNT_NO_SESSION : Reg := ⟨1835140, [], 0, .plain⟩
def F.OSP_CNT_NO_SESSION_V : Field := ⟨R.OSP_CNT_NO_SESSION, 31, 0, .ro, .o, none⟩
/-- OSP_CNT_MALFORMED -/
def R.OSP_CNT_MALFORMED : Reg := ⟨1835144, [], 0, .plain⟩
def F.OSP_CNT_MALFORMED_V : Field := ⟨R.OSP_CNT_MALFORMED, 31, 0, .ro, .o, none⟩
/-- OSP_CNT_ERR_SENT -/
def R.OSP_CNT_ERR_SENT : Reg := ⟨1835148, [], 0, .plain⟩
def F.OSP_CNT_ERR_SENT_V : Field := ⟨R.OSP_CNT_ERR_SENT, 31, 0, .ro, .o, none⟩
/-- OSP_CNT_ERR_SUPPRESSED -/
def R.OSP_CNT_ERR_SUPPRESSED : Reg := ⟨1835152, [], 0, .plain⟩
def F.OSP_CNT_ERR_SUPPRESSED_V : Field := ⟨R.OSP_CNT_ERR_SUPPRESSED, 31, 0, .ro, .o, none⟩
/-- OSP_SESn_STAT -/
def R.OSP_SESn_STAT : Reg := ⟨1839104, [(8, 64)], 0, .plain⟩
def F.OSP_SESn_STAT_OBJECTS : Field := ⟨R.OSP_SESn_STAT, 26, 16, .ro, .o, none⟩
def F.OSP_SESn_STAT_PORT : Field := ⟨R.OSP_SESn_STAT, 4, 4, .ro, .o, none⟩
def F.OSP_SESn_STAT_ROLE : Field := ⟨R.OSP_SESn_STAT, 3, 2, .ro, .o, none⟩
def F.OSP_SESn_STAT_STATE : Field := ⟨R.OSP_SESn_STAT, 1, 0, .ro, .o, none⟩
/-- OSP_SESn_ADDR -/
def R.OSP_SESn_ADDR : Reg := ⟨1839108, [(8, 64)], 0, .plain⟩
def F.OSP_SESn_ADDR_V : Field := ⟨R.OSP_SESn_ADDR, 31, 0, .ro, .o, none⟩
/-- OSP_SESn_PORTS -/
def R.OSP_SESn_PORTS : Reg := ⟨1839112, [(8, 64)], 0, .plain⟩
def F.OSP_SESn_PORTS_KA_MS : Field := ⟨R.OSP_SESn_PORTS, 31, 16, .ro, .o, none⟩
def F.OSP_SESn_PORTS_UDP : Field := ⟨R.OSP_SESn_PORTS, 15, 0, .ro, .o, none⟩
/-- OSP_SESn_EXPECT -/
def R.OSP_SESn_EXPECT : Reg := ⟨1839116, [(8, 64)], 0, .plain⟩
def F.OSP_SESn_EXPECT_E : Field := ⟨R.OSP_SESn_EXPECT, 31, 0, .ro, .o, none⟩
/-- OSP_SESn_CTRL -/
def R.OSP_SESn_CTRL : Reg := ⟨1839120, [(8, 64)], 0, .plain⟩
def F.OSP_SESn_CTRL_CLOSE : Field := ⟨R.OSP_SESn_CTRL, 0, 0, .w1s, .i, none⟩
/-- OSP_SESn_PEND -/
def R.OSP_SESn_PEND : Reg := ⟨1839124, [(8, 64)], 0, .plain⟩
def F.OSP_SESn_PEND_PEND : Field := ⟨R.OSP_SESn_PEND, 16, 0, .ro, .o, none⟩
/-- OSP_SESn_CNT_MSGS -/
def R.OSP_SESn_CNT_MSGS : Reg := ⟨1839136, [(8, 64)], 0, .plain⟩
def F.OSP_SESn_CNT_MSGS_V : Field := ⟨R.OSP_SESn_CNT_MSGS, 31, 0, .ro, .o, none⟩
/-- OSP_SESn_CNT_RECORDS -/
def R.OSP_SESn_CNT_RECORDS : Reg := ⟨1839140, [(8, 64)], 0, .plain⟩
def F.OSP_SESn_CNT_RECORDS_V : Field := ⟨R.OSP_SESn_CNT_RECORDS, 31, 0, .ro, .o, none⟩
/-- OSP_SESn_CNT_DUP -/
def R.OSP_SESn_CNT_DUP : Reg := ⟨1839144, [(8, 64)], 0, .plain⟩
def F.OSP_SESn_CNT_DUP_V : Field := ⟨R.OSP_SESn_CNT_DUP, 31, 0, .ro, .o, none⟩
/-- OSP_SESn_CNT_WINDOW -/
def R.OSP_SESn_CNT_WINDOW : Reg := ⟨1839148, [(8, 64)], 0, .plain⟩
def F.OSP_SESn_CNT_WINDOW_V : Field := ⟨R.OSP_SESn_CNT_WINDOW, 31, 0, .ro, .o, none⟩
/-- OSP_SESn_CNT_NAK -/
def R.OSP_SESn_CNT_NAK : Reg := ⟨1839152, [(8, 64)], 0, .plain⟩
def F.OSP_SESn_CNT_NAK_V : Field := ⟨R.OSP_SESn_CNT_NAK, 31, 0, .ro, .o, none⟩
/-- OSP_SESn_CNT_LOST -/
def R.OSP_SESn_CNT_LOST : Reg := ⟨1839156, [(8, 64)], 0, .plain⟩
def F.OSP_SESn_CNT_LOST_V : Field := ⟨R.OSP_SESn_CNT_LOST, 31, 0, .ro, .o, none⟩
/-- OSP_SESn_CNT_LATE -/
def R.OSP_SESn_CNT_LATE : Reg := ⟨1839160, [(8, 64)], 0, .plain⟩
def F.OSP_SESn_CNT_LATE_V : Field := ⟨R.OSP_SESn_CNT_LATE, 31, 0, .ro, .o, none⟩
/-- OSP_SESn_CNT_REFUSED -/
def R.OSP_SESn_CNT_REFUSED : Reg := ⟨1839164, [(8, 64)], 0, .plain⟩
def F.OSP_SESn_CNT_REFUSED_V : Field := ⟨R.OSP_SESn_CNT_REFUSED, 31, 0, .ro, .o, none⟩
/-- OSP_OBJn -/
def R.OSP_OBJn : Reg := ⟨1851392, [(1024, 4)], 4026532340, .plain⟩
def F.OSP_OBJn_OWNER : Field := ⟨R.OSP_OBJn, 31, 28, .rw, .o, none⟩
def F.OSP_OBJn_POLICY : Field := ⟨R.OSP_OBJn, 27, 26, .rw, .i, none⟩
def F.OSP_OBJn_ORPHAN_MS : Field := ⟨R.OSP_OBJn, 15, 0, .rw, .i, none⟩
/-- OSP_HOMEn_X -/
def R.OSP_HOMEn_X : Reg := ⟨1867776, [(1024, 16)], 0, .plain⟩
def F.OSP_HOMEn_X_V : Field := ⟨R.OSP_HOMEn_X, 23, 0, .rw, .i, none⟩
/-- OSP_HOMEn_Y -/
def R.OSP_HOMEn_Y : Reg := ⟨1867780, [(1024, 16)], 0, .plain⟩
def F.OSP_HOMEn_Y_V : Field := ⟨R.OSP_HOMEn_Y, 23, 0, .rw, .i, none⟩
/-- OSP_HOMEn_Z -/
def R.OSP_HOMEn_Z : Reg := ⟨1867784, [(1024, 16)], 0, .plain⟩
def F.OSP_HOMEn_Z_V : Field := ⟨R.OSP_HOMEn_Z, 23, 0, .rw, .i, none⟩

/-- The OSP registers. -/
def regTableOsp : List RegEntry :=
  [⟨R.OSP_CTRL, [], [F.OSP_CTRL_EN, F.OSP_CTRL_PORTS, F.OSP_CTRL_UDP]⟩,
   ⟨R.OSP_STAT, [], [F.OSP_STAT_SESSIONS, F.OSP_STAT_PEND]⟩,
   ⟨R.OSP_EVT, [.evt], [F.OSP_EVT_TIMEOUT, F.OSP_EVT_LOST, F.OSP_EVT_STORE_FULL, F.OSP_EVT_LATE, F.OSP_EVT_ERR_SENT, F.OSP_EVT_AUTH_FAIL, F.OSP_EVT_CLOSE, F.OSP_EVT_OPEN]⟩,
   ⟨R.OSP_EVTEN, [], [F.OSP_EVTEN_TIMEOUT, F.OSP_EVTEN_LOST, F.OSP_EVTEN_STORE_FULL, F.OSP_EVTEN_LATE, F.OSP_EVTEN_ERR_SENT, F.OSP_EVTEN_AUTH_FAIL, F.OSP_EVTEN_CLOSE, F.OSP_EVTEN_OPEN]⟩,
   ⟨R.OSP_RATE, [], [F.OSP_RATE_RATE]⟩,
   ⟨R.OSP_BURST, [], [F.OSP_BURST_PEND, F.OSP_BURST_BURST]⟩,
   ⟨R.OSP_TIMERS, [], [F.OSP_TIMERS_GIVEUP, F.OSP_TIMERS_BATCHMAX]⟩,
   ⟨R.OSP_BACKLOG, [], [F.OSP_BACKLOG_WAIT]⟩,
   ⟨R.OSP_ERRLOG, [], [F.OSP_ERRLOG_CODE, F.OSP_ERRLOG_SOURCE, F.OSP_ERRLOG_OBJ]⟩,
   ⟨R.OSP_ERRSEQ, [], [F.OSP_ERRSEQ_V]⟩,
   ⟨R.OSP_ERRTIME, [], [F.OSP_ERRTIME_V]⟩,
   ⟨R.OSP_CNT_AUTH_FAIL, [], [F.OSP_CNT_AUTH_FAIL_V]⟩,
   ⟨R.OSP_CNT_NO_SESSION, [], [F.OSP_CNT_NO_SESSION_V]⟩,
   ⟨R.OSP_CNT_MALFORMED, [], [F.OSP_CNT_MALFORMED_V]⟩,
   ⟨R.OSP_CNT_ERR_SENT, [], [F.OSP_CNT_ERR_SENT_V]⟩,
   ⟨R.OSP_CNT_ERR_SUPPRESSED, [], [F.OSP_CNT_ERR_SUPPRESSED_V]⟩,
   ⟨R.OSP_SESn_STAT, [], [F.OSP_SESn_STAT_OBJECTS, F.OSP_SESn_STAT_PORT, F.OSP_SESn_STAT_ROLE, F.OSP_SESn_STAT_STATE]⟩,
   ⟨R.OSP_SESn_ADDR, [], [F.OSP_SESn_ADDR_V]⟩,
   ⟨R.OSP_SESn_PORTS, [], [F.OSP_SESn_PORTS_KA_MS, F.OSP_SESn_PORTS_UDP]⟩,
   ⟨R.OSP_SESn_EXPECT, [], [F.OSP_SESn_EXPECT_E]⟩,
   ⟨R.OSP_SESn_CTRL, [], [F.OSP_SESn_CTRL_CLOSE]⟩,
   ⟨R.OSP_SESn_PEND, [], [F.OSP_SESn_PEND_PEND]⟩,
   ⟨R.OSP_SESn_CNT_MSGS, [], [F.OSP_SESn_CNT_MSGS_V]⟩,
   ⟨R.OSP_SESn_CNT_RECORDS, [], [F.OSP_SESn_CNT_RECORDS_V]⟩,
   ⟨R.OSP_SESn_CNT_DUP, [], [F.OSP_SESn_CNT_DUP_V]⟩,
   ⟨R.OSP_SESn_CNT_WINDOW, [], [F.OSP_SESn_CNT_WINDOW_V]⟩,
   ⟨R.OSP_SESn_CNT_NAK, [], [F.OSP_SESn_CNT_NAK_V]⟩,
   ⟨R.OSP_SESn_CNT_LOST, [], [F.OSP_SESn_CNT_LOST_V]⟩,
   ⟨R.OSP_SESn_CNT_LATE, [], [F.OSP_SESn_CNT_LATE_V]⟩,
   ⟨R.OSP_SESn_CNT_REFUSED, [], [F.OSP_SESn_CNT_REFUSED_V]⟩,
   ⟨R.OSP_OBJn, [.obj], [F.OSP_OBJn_OWNER, F.OSP_OBJn_POLICY, F.OSP_OBJn_ORPHAN_MS]⟩,
   ⟨R.OSP_HOMEn_X, [.obj], [F.OSP_HOMEn_X_V]⟩,
   ⟨R.OSP_HOMEn_Y, [.obj], [F.OSP_HOMEn_Y_V]⟩,
   ⟨R.OSP_HOMEn_Z, [.obj], [F.OSP_HOMEn_Z_V]⟩]

/-! ## SAP (R142 to R156) -/

/-- SAP_STAT -/
def R.SAP_STAT : Reg := ⟨2097152, [], 0, .plain⟩
def F.SAP_STAT_RUN : Field := ⟨R.SAP_STAT, 31, 0, .ro, .o, none⟩
/-- SAP_PEND -/
def R.SAP_PEND : Reg := ⟨2097156, [], 0, .plain⟩
def F.SAP_PEND_PEND : Field := ⟨R.SAP_PEND, 31, 0, .ro, .o, none⟩
/-- SAPp_CFG -/
def R.SAPp_CFG : Reg := ⟨2101248, [(32, 64)], 51924992, .plain⟩
def F.SAPp_CFG_EN : Field := ⟨R.SAPp_CFG, 31, 31, .rw, .i, none⟩
def F.SAPp_CFG_DIR : Field := ⟨R.SAPp_CFG, 30, 30, .rw, .i, none⟩
def F.SAPp_CFG_FMT : Field := ⟨R.SAPp_CFG, 29, 29, .rw, .i, none⟩
def F.SAPp_CFG_BCLK_INV : Field := ⟨R.SAPp_CFG, 28, 28, .rw, .i, none⟩
def F.SAPp_CFG_SYNC : Field := ⟨R.SAPp_CFG, 27, 27, .rw, .i, none⟩
def F.SAPp_CFG_PACK : Field := ⟨R.SAPp_CFG, 26, 26, .rw, .i, none⟩
def F.SAPp_CFG_SLOTS : Field := ⟨R.SAPp_CFG, 25, 24, .rw, .i, none⟩
def F.SAPp_CFG_WLEN : Field := ⟨R.SAPp_CFG, 21, 16, .rw, .i, some (16, 32)⟩
def F.SAPp_CFG_RATE : Field := ⟨R.SAPp_CFG, 15, 12, .rw, .i, none⟩
def F.SAPp_CFG_GRP_EN : Field := ⟨R.SAPp_CFG, 4, 4, .rw, .i, none⟩
def F.SAPp_CFG_GRP : Field := ⟨R.SAPp_CFG, 3, 0, .rw, .i, none⟩
/-- SAPp_QMAP -/
def R.SAPp_QMAP : Reg := ⟨2101252, [(32, 64)], 0, .plain⟩
def F.SAPp_QMAP_QUEUE : Field := ⟨R.SAPp_QMAP, 7, 0, .rw, .i, none⟩
/-- SAPp_STAT -/
def R.SAPp_STAT : Reg := ⟨2101256, [(32, 64)], 0, .plain⟩
def F.SAPp_STAT_RUN : Field := ⟨R.SAPp_STAT, 31, 31, .ro, .o, none⟩
def F.SAPp_STAT_ORDER_LOST : Field := ⟨R.SAPp_STAT, 30, 30, .ro, .o, none⟩
def F.SAPp_STAT_DEV_HI : Field := ⟨R.SAPp_STAT, 29, 29, .ro, .o, none⟩
def F.SAPp_STAT_HALF_BITS : Field := ⟨R.SAPp_STAT, 23, 16, .ro, .o, none⟩
def F.SAPp_STAT_CLASS : Field := ⟨R.SAPp_STAT, 3, 0, .ro, .o, none⟩
/-- SAPp_EVT -/
def R.SAPp_EVT : Reg := ⟨2101260, [(32, 64)], 0, .plain⟩
def F.SAPp_EVT_SHORT : Field := ⟨R.SAPp_EVT, 5, 5, .w1c, .o, none⟩
def F.SAPp_EVT_ORDER_LOST : Field := ⟨R.SAPp_EVT, 4, 4, .w1c, .o, none⟩
def F.SAPp_EVT_UNDERRUN : Field := ⟨R.SAPp_EVT, 3, 3, .w1c, .o, none⟩
def F.SAPp_EVT_OVERRUN : Field := ⟨R.SAPp_EVT, 2, 2, .w1c, .o, none⟩
def F.SAPp_EVT_DEV : Field := ⟨R.SAPp_EVT, 1, 1, .w1c, .o, none⟩
def F.SAPp_EVT_CLASS_CHG : Field := ⟨R.SAPp_EVT, 0, 0, .w1c, .o, none⟩
/-- SAPp_EVTEN -/
def R.SAPp_EVTEN : Reg := ⟨2101264, [(32, 64)], 0, .plain⟩
def F.SAPp_EVTEN_SHORT : Field := ⟨R.SAPp_EVTEN, 5, 5, .rw, .i, none⟩
def F.SAPp_EVTEN_ORDER_LOST : Field := ⟨R.SAPp_EVTEN, 4, 4, .rw, .i, none⟩
def F.SAPp_EVTEN_UNDERRUN : Field := ⟨R.SAPp_EVTEN, 3, 3, .rw, .i, none⟩
def F.SAPp_EVTEN_OVERRUN : Field := ⟨R.SAPp_EVTEN, 2, 2, .rw, .i, none⟩
def F.SAPp_EVTEN_DEV : Field := ⟨R.SAPp_EVTEN, 1, 1, .rw, .i, none⟩
def F.SAPp_EVTEN_CLASS_CHG : Field := ⟨R.SAPp_EVTEN, 0, 0, .rw, .i, none⟩
/-- SAPp_RATE -/
def R.SAPp_RATE : Reg := ⟨2101268, [(32, 64)], 0, .plain⟩
def F.SAPp_RATE_RATE : Field := ⟨R.SAPp_RATE, 31, 0, .ro, .o, none⟩
/-- SAPp_THR -/
def R.SAPp_THR : Reg := ⟨2101272, [(32, 64)], 200, .plain⟩
def F.SAPp_THR_THR : Field := ⟨R.SAPp_THR, 15, 0, .rw, .i, some (1, 20000)⟩
/-- SAPp_OFS -/
def R.SAPp_OFS : Reg := ⟨2101276, [(32, 64)], 0, .plain⟩
def F.SAPp_OFS_OFS : Field := ⟨R.SAPp_OFS, 31, 0, .rw, .i, none⟩
/-- SAPp_TXBUS -/
def R.SAPp_TXBUS : Reg := ⟨2101280, [(32, 64)], 0, .plain⟩
def F.SAPp_TXBUS_BUS_R : Field := ⟨R.SAPp_TXBUS, 24, 16, .rw, .i, none⟩
def F.SAPp_TXBUS_BUS_L : Field := ⟨R.SAPp_TXBUS, 8, 0, .rw, .i, none⟩
/-- SAPp_CNT_FRAMES -/
def R.SAPp_CNT_FRAMES : Reg := ⟨2101288, [(32, 64)], 0, .plain⟩
def F.SAPp_CNT_FRAMES_V : Field := ⟨R.SAPp_CNT_FRAMES, 31, 0, .ro, .o, none⟩
/-- SAPp_CNT_OVERRUN -/
def R.SAPp_CNT_OVERRUN : Reg := ⟨2101292, [(32, 64)], 0, .plain⟩
def F.SAPp_CNT_OVERRUN_V : Field := ⟨R.SAPp_CNT_OVERRUN, 31, 0, .ro, .o, none⟩
/-- SAPp_CNT_UNDERRUN -/
def R.SAPp_CNT_UNDERRUN : Reg := ⟨2101296, [(32, 64)], 0, .plain⟩
def F.SAPp_CNT_UNDERRUN_V : Field := ⟨R.SAPp_CNT_UNDERRUN, 31, 0, .ro, .o, none⟩
/-- SAPp_CNT_SHORT -/
def R.SAPp_CNT_SHORT : Reg := ⟨2101300, [(32, 64)], 0, .plain⟩
def F.SAPp_CNT_SHORT_V : Field := ⟨R.SAPp_CNT_SHORT, 31, 0, .ro, .o, none⟩
/-- SAPp_CNT_CLASS -/
def R.SAPp_CNT_CLASS : Reg := ⟨2101304, [(32, 64)], 0, .plain⟩
def F.SAPp_CNT_CLASS_V : Field := ⟨R.SAPp_CNT_CLASS, 31, 0, .ro, .o, none⟩

/-- The SAP registers. -/
def regTableSap : List RegEntry :=
  [⟨R.SAP_STAT, [], [F.SAP_STAT_RUN]⟩,
   ⟨R.SAP_PEND, [], [F.SAP_PEND_PEND]⟩,
   ⟨R.SAPp_CFG, [.safe], [F.SAPp_CFG_EN, F.SAPp_CFG_DIR, F.SAPp_CFG_FMT, F.SAPp_CFG_BCLK_INV, F.SAPp_CFG_SYNC, F.SAPp_CFG_PACK, F.SAPp_CFG_SLOTS, F.SAPp_CFG_WLEN, F.SAPp_CFG_RATE, F.SAPp_CFG_GRP_EN, F.SAPp_CFG_GRP]⟩,
   ⟨R.SAPp_QMAP, [.safe], [F.SAPp_QMAP_QUEUE]⟩,
   ⟨R.SAPp_STAT, [], [F.SAPp_STAT_RUN, F.SAPp_STAT_ORDER_LOST, F.SAPp_STAT_DEV_HI, F.SAPp_STAT_HALF_BITS, F.SAPp_STAT_CLASS]⟩,
   ⟨R.SAPp_EVT, [.evt], [F.SAPp_EVT_SHORT, F.SAPp_EVT_ORDER_LOST, F.SAPp_EVT_UNDERRUN, F.SAPp_EVT_OVERRUN, F.SAPp_EVT_DEV, F.SAPp_EVT_CLASS_CHG]⟩,
   ⟨R.SAPp_EVTEN, [], [F.SAPp_EVTEN_SHORT, F.SAPp_EVTEN_ORDER_LOST, F.SAPp_EVTEN_UNDERRUN, F.SAPp_EVTEN_OVERRUN, F.SAPp_EVTEN_DEV, F.SAPp_EVTEN_CLASS_CHG]⟩,
   ⟨R.SAPp_RATE, [], [F.SAPp_RATE_RATE]⟩,
   ⟨R.SAPp_THR, [], [F.SAPp_THR_THR]⟩,
   ⟨R.SAPp_OFS, [.safe], [F.SAPp_OFS_OFS]⟩,
   ⟨R.SAPp_TXBUS, [.safe], [F.SAPp_TXBUS_BUS_R, F.SAPp_TXBUS_BUS_L]⟩,
   ⟨R.SAPp_CNT_FRAMES, [], [F.SAPp_CNT_FRAMES_V]⟩,
   ⟨R.SAPp_CNT_OVERRUN, [], [F.SAPp_CNT_OVERRUN_V]⟩,
   ⟨R.SAPp_CNT_UNDERRUN, [], [F.SAPp_CNT_UNDERRUN_V]⟩,
   ⟨R.SAPp_CNT_SHORT, [], [F.SAPp_CNT_SHORT_V]⟩,
   ⟨R.SAPp_CNT_CLASS, [], [F.SAPp_CNT_CLASS_V]⟩]

/-! ## BRM (R157 to R168) -/

/-- BRM_STAT -/
def R.BRM_STAT : Reg := ⟨2359296, [], 65536, .plain⟩
def F.BRM_STAT_SHARED : Field := ⟨R.BRM_STAT, 16, 0, .ro, .o, none⟩
/-- BRM_EVT -/
def R.BRM_EVT : Reg := ⟨2359304, [], 0, .plain⟩
def F.BRM_EVT_SHARED_EMPTY : Field := ⟨R.BRM_EVT, 0, 0, .w1c, .o, none⟩
/-- BRM_EVTEN -/
def R.BRM_EVTEN : Reg := ⟨2359308, [], 0, .plain⟩
def F.BRM_EVTEN_SHARED_EMPTY : Field := ⟨R.BRM_EVTEN, 0, 0, .rw, .i, none⟩
/-- BRM_FCn -/
def R.BRM_FCn : Reg := ⟨2359328, [(4, 4)], 0, .plain⟩
def F.BRM_FCn_EN : Field := ⟨R.BRM_FCn, 31, 31, .rw, .i, none⟩
def F.BRM_FCn_POL : Field := ⟨R.BRM_FCn, 30, 30, .rw, .i, none⟩
def F.BRM_FCn_QUEUE : Field := ⟨R.BRM_FCn, 7, 0, .rw, .i, none⟩
/-- BRM_PENDk -/
def R.BRM_PENDk : Reg := ⟨2359360, [(8, 4)], 0, .plain⟩
def F.BRM_PENDk_V : Field := ⟨R.BRM_PENDk, 31, 0, .ro, .o, none⟩
/-- BRMq_CFG -/
def R.BRMq_CFG : Reg := ⟨2363392, [(256, 64)], 0, .plain⟩
def F.BRMq_CFG_EN : Field := ⟨R.BRMq_CFG, 31, 31, .rw, .i, none⟩
def F.BRMq_CFG_WRITER : Field := ⟨R.BRMq_CFG, 30, 28, .rw, .i, none⟩
def F.BRMq_CFG_READER : Field := ⟨R.BRMq_CFG, 27, 26, .rw, .i, none⟩
def F.BRMq_CFG_IDLE : Field := ⟨R.BRMq_CFG, 15, 0, .rw, .i, none⟩
/-- BRMq_SIZE -/
def R.BRMq_SIZE : Reg := ⟨2363396, [(256, 64)], 65536, .plain⟩
def F.BRMq_SIZE_CAP : Field := ⟨R.BRMq_SIZE, 31, 16, .rw, .i, some (1, 65535)⟩
def F.BRMq_SIZE_RSV : Field := ⟨R.BRMq_SIZE, 15, 0, .rw, .i, none⟩
/-- BRMq_HWM -/
def R.BRMq_HWM : Reg := ⟨2363400, [(256, 64)], 2, .plain⟩
def F.BRMq_HWM_MARK : Field := ⟨R.BRMq_HWM, 16, 0, .rw, .i, none⟩
/-- BRMq_LWM -/
def R.BRMq_LWM : Reg := ⟨2363404, [(256, 64)], 0, .plain⟩
def F.BRMq_LWM_MARK : Field := ⟨R.BRMq_LWM, 16, 0, .rw, .i, none⟩
/-- BRMq_STAT -/
def R.BRMq_STAT : Reg := ⟨2363408, [(256, 64)], 268435456, .plain⟩
def F.BRMq_STAT_RESETTING : Field := ⟨R.BRMq_STAT, 31, 31, .ro, .o, none⟩
def F.BRMq_STAT_SIDE : Field := ⟨R.BRMq_STAT, 30, 30, .ro, .o, none⟩
def F.BRMq_STAT_FULL : Field := ⟨R.BRMq_STAT, 29, 29, .ro, .o, none⟩
def F.BRMq_STAT_EMPTY : Field := ⟨R.BRMq_STAT, 28, 28, .ro, .o, none⟩
def F.BRMq_STAT_LEVEL : Field := ⟨R.BRMq_STAT, 16, 0, .ro, .o, none⟩
/-- BRMq_EVT -/
def R.BRMq_EVT : Reg := ⟨2363412, [(256, 64)], 0, .plain⟩
def F.BRMq_EVT_OVERRUN : Field := ⟨R.BRMq_EVT, 3, 3, .w1c, .o, none⟩
def F.BRMq_EVT_UNDERRUN : Field := ⟨R.BRMq_EVT, 2, 2, .w1c, .o, none⟩
def F.BRMq_EVT_LO_CROSS : Field := ⟨R.BRMq_EVT, 1, 1, .w1c, .o, none⟩
def F.BRMq_EVT_HI_CROSS : Field := ⟨R.BRMq_EVT, 0, 0, .w1c, .o, none⟩
/-- BRMq_EVTEN -/
def R.BRMq_EVTEN : Reg := ⟨2363416, [(256, 64)], 0, .plain⟩
def F.BRMq_EVTEN_OVERRUN : Field := ⟨R.BRMq_EVTEN, 3, 3, .rw, .i, none⟩
def F.BRMq_EVTEN_UNDERRUN : Field := ⟨R.BRMq_EVTEN, 2, 2, .rw, .i, none⟩
def F.BRMq_EVTEN_LO_CROSS : Field := ⟨R.BRMq_EVTEN, 1, 1, .rw, .i, none⟩
def F.BRMq_EVTEN_HI_CROSS : Field := ⟨R.BRMq_EVTEN, 0, 0, .rw, .i, none⟩
/-- BRMq_CTRL -/
def R.BRMq_CTRL : Reg := ⟨2363420, [(256, 64)], 0, .plain⟩
def F.BRMq_CTRL_RESET : Field := ⟨R.BRMq_CTRL, 2, 2, .w1s, .i, none⟩
def F.BRMq_CTRL_FLUSH : Field := ⟨R.BRMq_CTRL, 1, 1, .w1s, .o, none⟩
def F.BRMq_CTRL_POP : Field := ⟨R.BRMq_CTRL, 0, 0, .w1s, .o, none⟩
/-- BRMq_WR -/
def R.BRMq_WR : Reg := ⟨2363424, [(256, 64)], 0, .plain⟩
def F.BRMq_WR_DATA : Field := ⟨R.BRMq_WR, 31, 0, .wo, .o, none⟩
/-- BRMq_RDTAG -/
def R.BRMq_RDTAG : Reg := ⟨2363428, [(256, 64)], 0, .plain⟩
def F.BRMq_RDTAG_BYTES : Field := ⟨R.BRMq_RDTAG, 5, 0, .ro, .o, none⟩
/-- BRMq_CNT_CROSS -/
def R.BRMq_CNT_CROSS : Reg := ⟨2363432, [(256, 64)], 0, .plain⟩
def F.BRMq_CNT_CROSS_V : Field := ⟨R.BRMq_CNT_CROSS, 31, 0, .ro, .o, none⟩
/-- BRMq_CNT_OVERRUN -/
def R.BRMq_CNT_OVERRUN : Reg := ⟨2363436, [(256, 64)], 0, .plain⟩
def F.BRMq_CNT_OVERRUN_V : Field := ⟨R.BRMq_CNT_OVERRUN, 31, 0, .ro, .o, none⟩
/-- BRMq_CNT_UNDERRUN -/
def R.BRMq_CNT_UNDERRUN : Reg := ⟨2363440, [(256, 64)], 0, .plain⟩
def F.BRMq_CNT_UNDERRUN_V : Field := ⟨R.BRMq_CNT_UNDERRUN, 31, 0, .ro, .o, none⟩
/-- BRMq_CNT_FLUSH -/
def R.BRMq_CNT_FLUSH : Reg := ⟨2363444, [(256, 64)], 0, .plain⟩
def F.BRMq_CNT_FLUSH_V : Field := ⟨R.BRMq_CNT_FLUSH, 31, 0, .ro, .o, none⟩
/-- BRMq_HEADi -/
def R.BRMq_HEADi : Reg := ⟨2392064, [(256, 32), (8, 4)], 0, .plain⟩
def F.BRMq_HEADi_V : Field := ⟨R.BRMq_HEADi, 31, 0, .ro, .o, none⟩

/-- The BRM registers. -/
def regTableBrm : List RegEntry :=
  [⟨R.BRM_STAT, [], [F.BRM_STAT_SHARED]⟩,
   ⟨R.BRM_EVT, [.evt], [F.BRM_EVT_SHARED_EMPTY]⟩,
   ⟨R.BRM_EVTEN, [], [F.BRM_EVTEN_SHARED_EMPTY]⟩,
   ⟨R.BRM_FCn, [], [F.BRM_FCn_EN, F.BRM_FCn_POL, F.BRM_FCn_QUEUE]⟩,
   ⟨R.BRM_PENDk, [], [F.BRM_PENDk_V]⟩,
   ⟨R.BRMq_CFG, [.safe], [F.BRMq_CFG_EN, F.BRMq_CFG_WRITER, F.BRMq_CFG_READER, F.BRMq_CFG_IDLE]⟩,
   ⟨R.BRMq_SIZE, [.safe], [F.BRMq_SIZE_CAP, F.BRMq_SIZE_RSV]⟩,
   ⟨R.BRMq_HWM, [.safe], [F.BRMq_HWM_MARK]⟩,
   ⟨R.BRMq_LWM, [.safe], [F.BRMq_LWM_MARK]⟩,
   ⟨R.BRMq_STAT, [], [F.BRMq_STAT_RESETTING, F.BRMq_STAT_SIDE, F.BRMq_STAT_FULL, F.BRMq_STAT_EMPTY, F.BRMq_STAT_LEVEL]⟩,
   ⟨R.BRMq_EVT, [.evt], [F.BRMq_EVT_OVERRUN, F.BRMq_EVT_UNDERRUN, F.BRMq_EVT_LO_CROSS, F.BRMq_EVT_HI_CROSS]⟩,
   ⟨R.BRMq_EVTEN, [], [F.BRMq_EVTEN_OVERRUN, F.BRMq_EVTEN_UNDERRUN, F.BRMq_EVTEN_LO_CROSS, F.BRMq_EVTEN_HI_CROSS]⟩,
   ⟨R.BRMq_CTRL, [], [F.BRMq_CTRL_RESET, F.BRMq_CTRL_FLUSH, F.BRMq_CTRL_POP]⟩,
   ⟨R.BRMq_WR, [], [F.BRMq_WR_DATA]⟩,
   ⟨R.BRMq_RDTAG, [], [F.BRMq_RDTAG_BYTES]⟩,
   ⟨R.BRMq_CNT_CROSS, [], [F.BRMq_CNT_CROSS_V]⟩,
   ⟨R.BRMq_CNT_OVERRUN, [], [F.BRMq_CNT_OVERRUN_V]⟩,
   ⟨R.BRMq_CNT_UNDERRUN, [], [F.BRMq_CNT_UNDERRUN_V]⟩,
   ⟨R.BRMq_CNT_FLUSH, [], [F.BRMq_CNT_FLUSH_V]⟩,
   ⟨R.BRMq_HEADi, [], [F.BRMq_HEADi_V]⟩]

/-! ## MDI (R169 to R175) -/

/-- MDI_CTRL -/
def R.MDI_CTRL : Reg := ⟨2621440, [], 8192, .plain⟩
def F.MDI_CTRL_EN : Field := ⟨R.MDI_CTRL, 31, 31, .rw, .i, none⟩
def F.MDI_CTRL_PEND : Field := ⟨R.MDI_CTRL, 15, 0, .rw, .i, some (256, 65535)⟩
/-- MDI_STAT -/
def R.MDI_STAT : Reg := ⟨2621444, [], 0, .plain⟩
def F.MDI_STAT_OBJECTS : Field := ⟨R.MDI_STAT, 26, 16, .ro, .o, none⟩
def F.MDI_STAT_CLK_ACTIVE : Field := ⟨R.MDI_STAT, 0, 0, .ro, .o, none⟩
/-- MDI_EVT -/
def R.MDI_EVT : Reg := ⟨2621448, [], 0, .plain⟩
def F.MDI_EVT_NOTAG : Field := ⟨R.MDI_EVT, 2, 2, .w1c, .o, none⟩
def F.MDI_EVT_LATE : Field := ⟨R.MDI_EVT, 1, 1, .w1c, .o, none⟩
def F.MDI_EVT_ERR : Field := ⟨R.MDI_EVT, 0, 0, .w1c, .o, none⟩
/-- MDI_EVTEN -/
def R.MDI_EVTEN : Reg := ⟨2621452, [], 0, .plain⟩
def F.MDI_EVTEN_NOTAG : Field := ⟨R.MDI_EVTEN, 2, 2, .rw, .i, none⟩
def F.MDI_EVTEN_LATE : Field := ⟨R.MDI_EVTEN, 1, 1, .rw, .i, none⟩
def F.MDI_EVTEN_ERR : Field := ⟨R.MDI_EVTEN, 0, 0, .rw, .i, none⟩
/-- MDI_ERRLOG -/
def R.MDI_ERRLOG : Reg := ⟨2621456, [], 0, .plain⟩
def F.MDI_ERRLOG_CODE : Field := ⟨R.MDI_ERRLOG, 31, 24, .ro, .o, none⟩
def F.MDI_ERRLOG_TAG : Field := ⟨R.MDI_ERRLOG, 22, 20, .ro, .o, none⟩
def F.MDI_ERRLOG_OBJ : Field := ⟨R.MDI_ERRLOG, 15, 0, .ro, .o, none⟩
/-- MDI_ERRTIME -/
def R.MDI_ERRTIME : Reg := ⟨2621460, [], 0, .plain⟩
def F.MDI_ERRTIME_NS : Field := ⟨R.MDI_ERRTIME, 31, 0, .ro, .o, none⟩
/-- MDI_TAGMAPt -/
def R.MDI_TAGMAPt : Reg := ⟨2621472, [(8, 4)], 0, .plain⟩
def F.MDI_TAGMAPt_EN : Field := ⟨R.MDI_TAGMAPt, 31, 31, .rw, .i, none⟩
def F.MDI_TAGMAPt_KIND : Field := ⟨R.MDI_TAGMAPt, 30, 30, .rw, .i, none⟩
def F.MDI_TAGMAPt_QUEUE : Field := ⟨R.MDI_TAGMAPt, 7, 0, .rw, .i, none⟩
/-- MDI_CNT_HALFWORDS -/
def R.MDI_CNT_HALFWORDS : Reg := ⟨2621568, [], 0, .plain⟩
def F.MDI_CNT_HALFWORDS_V : Field := ⟨R.MDI_CNT_HALFWORDS, 31, 0, .ro, .o, none⟩
/-- MDI_CNT_RECORDS -/
def R.MDI_CNT_RECORDS : Reg := ⟨2621572, [], 0, .plain⟩
def F.MDI_CNT_RECORDS_V : Field := ⟨R.MDI_CNT_RECORDS, 31, 0, .ro, .o, none⟩
/-- MDI_CNT_REFUSED -/
def R.MDI_CNT_REFUSED : Reg := ⟨2621576, [], 0, .plain⟩
def F.MDI_CNT_REFUSED_V : Field := ⟨R.MDI_CNT_REFUSED, 31, 0, .ro, .o, none⟩
/-- MDI_CNT_LATE -/
def R.MDI_CNT_LATE : Reg := ⟨2621580, [], 0, .plain⟩
def F.MDI_CNT_LATE_V : Field := ⟨R.MDI_CNT_LATE, 31, 0, .ro, .o, none⟩
/-- MDI_CNT_NOTAG -/
def R.MDI_CNT_NOTAG : Reg := ⟨2621584, [], 0, .plain⟩
def F.MDI_CNT_NOTAG_V : Field := ⟨R.MDI_CNT_NOTAG, 31, 0, .ro, .o, none⟩

/-- The MDI registers. -/
def regTableMdi : List RegEntry :=
  [⟨R.MDI_CTRL, [], [F.MDI_CTRL_EN, F.MDI_CTRL_PEND]⟩,
   ⟨R.MDI_STAT, [], [F.MDI_STAT_OBJECTS, F.MDI_STAT_CLK_ACTIVE]⟩,
   ⟨R.MDI_EVT, [.evt], [F.MDI_EVT_NOTAG, F.MDI_EVT_LATE, F.MDI_EVT_ERR]⟩,
   ⟨R.MDI_EVTEN, [], [F.MDI_EVTEN_NOTAG, F.MDI_EVTEN_LATE, F.MDI_EVTEN_ERR]⟩,
   ⟨R.MDI_ERRLOG, [], [F.MDI_ERRLOG_CODE, F.MDI_ERRLOG_TAG, F.MDI_ERRLOG_OBJ]⟩,
   ⟨R.MDI_ERRTIME, [], [F.MDI_ERRTIME_NS]⟩,
   ⟨R.MDI_TAGMAPt, [], [F.MDI_TAGMAPt_EN, F.MDI_TAGMAPt_KIND, F.MDI_TAGMAPt_QUEUE]⟩,
   ⟨R.MDI_CNT_HALFWORDS, [], [F.MDI_CNT_HALFWORDS_V]⟩,
   ⟨R.MDI_CNT_RECORDS, [], [F.MDI_CNT_RECORDS_V]⟩,
   ⟨R.MDI_CNT_REFUSED, [], [F.MDI_CNT_REFUSED_V]⟩,
   ⟨R.MDI_CNT_LATE, [], [F.MDI_CNT_LATE_V]⟩,
   ⟨R.MDI_CNT_NOTAG, [], [F.MDI_CNT_NOTAG_V]⟩]

/-! ## SRC (R176 to R185) -/

/-- SRC_CTRL -/
def R.SRC_CTRL : Reg := ⟨3145728, [], 12, .plain⟩
def F.SRC_CTRL_SLIP_WIN : Field := ⟨R.SRC_CTRL, 3, 0, .rw, .i, some (4, 15)⟩
/-- SRC_STAT -/
def R.SRC_STAT : Reg := ⟨3145732, [], 0, .plain⟩
def F.SRC_STAT_USED : Field := ⟨R.SRC_STAT, 10, 0, .ro, .o, none⟩
/-- SRC_EVT -/
def R.SRC_EVT : Reg := ⟨3145736, [], 0, .plain⟩
def F.SRC_EVT_REACQ : Field := ⟨R.SRC_EVT, 1, 1, .w1c, .o, none⟩
def F.SRC_EVT_SLIP : Field := ⟨R.SRC_EVT, 0, 0, .w1c, .o, none⟩
/-- SRC_EVTEN -/
def R.SRC_EVTEN : Reg := ⟨3145740, [], 0, .plain⟩
def F.SRC_EVTEN_REACQ : Field := ⟨R.SRC_EVTEN, 1, 1, .rw, .i, none⟩
def F.SRC_EVTEN_SLIP : Field := ⟨R.SRC_EVTEN, 0, 0, .rw, .i, none⟩
/-- SRC_CNT_SLIP -/
def R.SRC_CNT_SLIP : Reg := ⟨3145856, [], 0, .plain⟩
def F.SRC_CNT_SLIP_V : Field := ⟨R.SRC_CNT_SLIP, 31, 0, .ro, .o, none⟩
/-- SRC_CNT_REACQ -/
def R.SRC_CNT_REACQ : Reg := ⟨3145860, [], 0, .plain⟩
def F.SRC_CNT_REACQ_V : Field := ⟨R.SRC_CNT_REACQ, 31, 0, .ro, .o, none⟩
/-- SRC_CHc_STAT -/
def R.SRC_CHc_STAT : Reg := ⟨3149824, [(1024, 4)], 0, .plain⟩
def F.SRC_CHc_STAT_STATE : Field := ⟨R.SRC_CHc_STAT, 31, 30, .ro, .o, none⟩
def F.SRC_CHc_STAT_KIND : Field := ⟨R.SRC_CHc_STAT, 29, 29, .ro, .o, none⟩
def F.SRC_CHc_STAT_ERR : Field := ⟨R.SRC_CHc_STAT, 23, 16, .ro, .o, none⟩
def F.SRC_CHc_STAT_DESIGN : Field := ⟨R.SRC_CHc_STAT, 15, 12, .ro, .o, none⟩
def F.SRC_CHc_STAT_SOURCE : Field := ⟨R.SRC_CHc_STAT, 10, 0, .ro, .o, none⟩

/-- The SRC registers. -/
def regTableSrc : List RegEntry :=
  [⟨R.SRC_CTRL, [], [F.SRC_CTRL_SLIP_WIN]⟩,
   ⟨R.SRC_STAT, [], [F.SRC_STAT_USED]⟩,
   ⟨R.SRC_EVT, [.evt], [F.SRC_EVT_REACQ, F.SRC_EVT_SLIP]⟩,
   ⟨R.SRC_EVTEN, [], [F.SRC_EVTEN_REACQ, F.SRC_EVTEN_SLIP]⟩,
   ⟨R.SRC_CNT_SLIP, [], [F.SRC_CNT_SLIP_V]⟩,
   ⟨R.SRC_CNT_REACQ, [], [F.SRC_CNT_REACQ_V]⟩,
   ⟨R.SRC_CHc_STAT, [], [F.SRC_CHc_STAT_STATE, F.SRC_CHc_STAT_KIND, F.SRC_CHc_STAT_ERR, F.SRC_CHc_STAT_DESIGN, F.SRC_CHc_STAT_SOURCE]⟩]

/-! ## INP (R186 to R196) -/

/-- INP_DLYREG -/
def R.INP_DLYREG : Reg := ⟨3211264, [], 0, .plain⟩
def F.INP_DLYREG_SIZE : Field := ⟨R.INP_DLYREG, 31, 16, .img, .i, some (0, 4096)⟩
def F.INP_DLYREG_BASE : Field := ⟨R.INP_DLYREG, 15, 0, .img, .i, none⟩
/-- INP_STAT -/
def R.INP_STAT : Reg := ⟨3211268, [], 0, .plain⟩
def F.INP_STAT_LINES : Field := ⟨R.INP_STAT, 10, 0, .ro, .o, none⟩
/-- INP_EVT -/
def R.INP_EVT : Reg := ⟨3211272, [], 0, .plain⟩
def F.INP_EVT_CHECK : Field := ⟨R.INP_EVT, 1, 1, .w1c, .o, none⟩
def F.INP_EVT_SAT : Field := ⟨R.INP_EVT, 0, 0, .w1c, .o, none⟩
/-- INP_EVTEN -/
def R.INP_EVTEN : Reg := ⟨3211276, [], 0, .plain⟩
def F.INP_EVTEN_CHECK : Field := ⟨R.INP_EVTEN, 1, 1, .rw, .i, none⟩
def F.INP_EVTEN_SAT : Field := ⟨R.INP_EVTEN, 0, 0, .rw, .i, none⟩
/-- INP_ERRLOG -/
def R.INP_ERRLOG : Reg := ⟨3211280, [], 0, .plain⟩
def F.INP_ERRLOG_LINE : Field := ⟨R.INP_ERRLOG, 10, 0, .ro, .o, none⟩
/-- INP_ERRTIME -/
def R.INP_ERRTIME : Reg := ⟨3211284, [], 0, .plain⟩
def F.INP_ERRTIME_NS : Field := ⟨R.INP_ERRTIME, 31, 0, .ro, .o, none⟩
/-- INP_CNT_SAT -/
def R.INP_CNT_SAT : Reg := ⟨3211392, [], 0, .plain⟩
def F.INP_CNT_SAT_V : Field := ⟨R.INP_CNT_SAT, 31, 0, .ro, .o, none⟩
/-- INP_CNT_CHECK -/
def R.INP_CNT_CHECK : Reg := ⟨3211396, [], 0, .plain⟩
def F.INP_CNT_CHECK_V : Field := ⟨R.INP_CNT_CHECK, 31, 0, .ro, .o, none⟩
/-- INPn_SRC -/
def R.INPn_SRC : Reg := ⟨3276800, [(2048, 32)], 0, .plain⟩
def F.INPn_SRC_KIND : Field := ⟨R.INPn_SRC, 13, 12, .rw, .i, none⟩
def F.INPn_SRC_INDEX : Field := ⟨R.INPn_SRC, 10, 0, .rw, .i, none⟩
/-- INPn_GAIN -/
def R.INPn_GAIN : Reg := ⟨3276804, [(2048, 32)], 360448, .plain⟩
def F.INPn_GAIN_POL : Field := ⟨R.INPn_GAIN, 31, 31, .rw, .i, none⟩
def F.INPn_GAIN_RAMP : Field := ⟨R.INPn_GAIN, 25, 16, .rw, .i, some (0, 1000)⟩
def F.INPn_GAIN_GAIN : Field := ⟨R.INPn_GAIN, 15, 0, .rw, .o, none⟩
/-- INPn_DLY -/
def R.INPn_DLY : Reg := ⟨3276808, [(2048, 32)], 0, .plain⟩
def F.INPn_DLY_DELAY : Field := ⟨R.INPn_DLY, 17, 0, .rw, .i, none⟩
/-- INPn_BQ -/
def R.INPn_BQ : Reg := ⟨3276812, [(2048, 32)], 0, .plain⟩
def F.INPn_BQ_EN : Field := ⟨R.INPn_BQ, 3, 0, .rw, .i, none⟩
/-- INPn_STAT -/
def R.INPn_STAT : Reg := ⟨3276816, [(2048, 32)], 0, .plain⟩
def F.INPn_STAT_CHECK : Field := ⟨R.INPn_STAT, 1, 1, .w1c, .o, none⟩
def F.INPn_STAT_SAT : Field := ⟨R.INPn_STAT, 0, 0, .w1c, .o, none⟩
/-- INPn_BQk_Cc -/
def R.INPn_BQk_Cc : Reg := ⟨3342336, [(2048, 128), (4, 20), (5, 4)], 0, .identity⟩
def F.INPn_BQk_Cc_COEF : Field := ⟨R.INPn_BQk_Cc, 23, 0, .rw, .i, none⟩

/-- The INP registers. -/
def regTableInp : List RegEntry :=
  [⟨R.INP_DLYREG, [], [F.INP_DLYREG_SIZE, F.INP_DLYREG_BASE]⟩,
   ⟨R.INP_STAT, [], [F.INP_STAT_LINES]⟩,
   ⟨R.INP_EVT, [.evt], [F.INP_EVT_CHECK, F.INP_EVT_SAT]⟩,
   ⟨R.INP_EVTEN, [], [F.INP_EVTEN_CHECK, F.INP_EVTEN_SAT]⟩,
   ⟨R.INP_ERRLOG, [], [F.INP_ERRLOG_LINE]⟩,
   ⟨R.INP_ERRTIME, [], [F.INP_ERRTIME_NS]⟩,
   ⟨R.INP_CNT_SAT, [], [F.INP_CNT_SAT_V]⟩,
   ⟨R.INP_CNT_CHECK, [], [F.INP_CNT_CHECK_V]⟩,
   ⟨R.INPn_SRC, [.safe], [F.INPn_SRC_KIND, F.INPn_SRC_INDEX]⟩,
   ⟨R.INPn_GAIN, [.safe], [F.INPn_GAIN_POL, F.INPn_GAIN_RAMP, F.INPn_GAIN_GAIN]⟩,
   ⟨R.INPn_DLY, [.safe], [F.INPn_DLY_DELAY]⟩,
   ⟨R.INPn_BQ, [.safe], [F.INPn_BQ_EN]⟩,
   ⟨R.INPn_STAT, [], [F.INPn_STAT_CHECK, F.INPn_STAT_SAT]⟩,
   ⟨R.INPn_BQk_Cc, [.safe], [F.INPn_BQk_Cc_COEF]⟩]

/-! ## LINE (R193) -/

/-- LINEl_CFG -/
def R.LINEl_CFG : Reg := ⟨3604480, [(1536, 16)], 0, .plain⟩
def F.LINEl_CFG_EN : Field := ⟨R.LINEl_CFG, 31, 31, .rw, .i, none⟩
def F.LINEl_CFG_CODING : Field := ⟨R.LINEl_CFG, 30, 30, .rw, .i, none⟩
def F.LINEl_CFG_OWNER_KIND : Field := ⟨R.LINEl_CFG, 29, 28, .rw, .i, none⟩
def F.LINEl_CFG_OWNER : Field := ⟨R.LINEl_CFG, 26, 16, .rw, .i, none⟩
def F.LINEl_CFG_LEN : Field := ⟨R.LINEl_CFG, 14, 0, .rw, .i, none⟩
/-- LINEl_BASE -/
def R.LINEl_BASE : Reg := ⟨3604484, [(1536, 16)], 0, .plain⟩
def F.LINEl_BASE_BASE : Field := ⟨R.LINEl_BASE, 26, 0, .rw, .i, none⟩

/-- The LINE registers. -/
def regTableLine : List RegEntry :=
  [⟨R.LINEl_CFG, [.safe], [F.LINEl_CFG_EN, F.LINEl_CFG_CODING, F.LINEl_CFG_OWNER_KIND, F.LINEl_CFG_OWNER, F.LINEl_CFG_LEN]⟩,
   ⟨R.LINEl_BASE, [.safe], [F.LINEl_BASE_BASE]⟩]

/-! ## QNC (R197 to R223) -/

/-- QNC_CTRL -/
def R.QNC_CTRL : Reg := ⟨4194304, [], 3276800, .plain⟩
def F.QNC_CTRL_LXF : Field := ⟨R.QNC_CTRL, 25, 16, .rw, .i, some (0, 1000)⟩
def F.QNC_CTRL_ACTIVE : Field := ⟨R.QNC_CTRL, 1, 0, .rw, .i, none⟩
/-- QNC_STAT -/
def R.QNC_STAT : Reg := ⟨4194308, [], 0, .plain⟩
def F.QNC_STAT_OBJECTS : Field := ⟨R.QNC_STAT, 26, 16, .ro, .o, none⟩
def F.QNC_STAT_FADING : Field := ⟨R.QNC_STAT, 4, 4, .ro, .o, none⟩
def F.QNC_STAT_FROM : Field := ⟨R.QNC_STAT, 3, 2, .ro, .o, none⟩
def F.QNC_STAT_LIVE : Field := ⟨R.QNC_STAT, 1, 0, .ro, .o, none⟩
/-- QNC_EVT -/
def R.QNC_EVT : Reg := ⟨4194312, [], 0, .plain⟩
def F.QNC_EVT_SWAP_DONE : Field := ⟨R.QNC_EVT, 3, 3, .w1c, .o, none⟩
def F.QNC_EVT_TBL_BUSY : Field := ⟨R.QNC_EVT, 2, 2, .w1c, .o, none⟩
def F.QNC_EVT_DCLAMP : Field := ⟨R.QNC_EVT, 1, 1, .w1c, .o, none⟩
def F.QNC_EVT_NOREGION : Field := ⟨R.QNC_EVT, 0, 0, .w1c, .o, none⟩
/-- QNC_EVTEN -/
def R.QNC_EVTEN : Reg := ⟨4194316, [], 0, .plain⟩
def F.QNC_EVTEN_SWAP_DONE : Field := ⟨R.QNC_EVTEN, 3, 3, .rw, .i, none⟩
def F.QNC_EVTEN_TBL_BUSY : Field := ⟨R.QNC_EVTEN, 2, 2, .rw, .i, none⟩
def F.QNC_EVTEN_DCLAMP : Field := ⟨R.QNC_EVTEN, 1, 1, .rw, .i, none⟩
def F.QNC_EVTEN_NOREGION : Field := ⟨R.QNC_EVTEN, 0, 0, .rw, .i, none⟩
/-- QNC_SOS -/
def R.QNC_SOS : Reg := ⟨4194320, [], 343000, .plain⟩
def F.QNC_SOS_SOS : Field := ⟨R.QNC_SOS, 18, 0, .rw, .i, some (300000, 400000)⟩
/-- QNC_DOPP -/
def R.QNC_DOPP : Reg := ⟨4194324, [], 16, .plain⟩
def F.QNC_DOPP_DJUMP : Field := ⟨R.QNC_DOPP, 5, 0, .rw, .i, some (1, 32)⟩
/-- QNC_CNT_NOREGION -/
def R.QNC_CNT_NOREGION : Reg := ⟨4194432, [], 0, .plain⟩
def F.QNC_CNT_NOREGION_V : Field := ⟨R.QNC_CNT_NOREGION, 31, 0, .ro, .o, none⟩
/-- QNC_CNT_DCLAMP -/
def R.QNC_CNT_DCLAMP : Reg := ⟨4194436, [], 0, .plain⟩
def F.QNC_CNT_DCLAMP_V : Field := ⟨R.QNC_CNT_DCLAMP, 31, 0, .ro, .o, none⟩
/-- QNC_CNT_DJUMP -/
def R.QNC_CNT_DJUMP : Reg := ⟨4194440, [], 0, .plain⟩
def F.QNC_CNT_DJUMP_V : Field := ⟨R.QNC_CNT_DJUMP, 31, 0, .ro, .o, none⟩
/-- QNC_CNT_DEFER -/
def R.QNC_CNT_DEFER : Reg := ⟨4194444, [], 0, .plain⟩
def F.QNC_CNT_DEFER_V : Field := ⟨R.QNC_CNT_DEFER, 31, 0, .ro, .o, none⟩
/-- QNC_CNT_TBL_BUSY -/
def R.QNC_CNT_TBL_BUSY : Reg := ⟨4194448, [], 0, .plain⟩
def F.QNC_CNT_TBL_BUSY_V : Field := ⟨R.QNC_CNT_TBL_BUSY, 31, 0, .ro, .o, none⟩
/-- QNC_CNT_CAPPED -/
def R.QNC_CNT_CAPPED : Reg := ⟨4194452, [], 0, .plain⟩
def F.QNC_CNT_CAPPED_V : Field := ⟨R.QNC_CNT_CAPPED, 31, 0, .ro, .o, none⟩
/-- QNC_LAYx_CFG -/
def R.QNC_LAYx_CFG : Reg := ⟨4194560, [(4, 32)], 2080374784, .plain⟩
def F.QNC_LAYx_CFG_EN : Field := ⟨R.QNC_LAYx_CFG, 31, 31, .rw, .i, none⟩
def F.QNC_LAYx_CFG_MAXSPK_M1 : Field := ⟨R.QNC_LAYx_CFG, 30, 26, .rw, .i, none⟩
def F.QNC_LAYx_CFG_NSPK_M1 : Field := ⟨R.QNC_LAYx_CFG, 24, 16, .rw, .i, none⟩
/-- QNC_LAYx_REG -/
def R.QNC_LAYx_REG : Reg := ⟨4194564, [(4, 32)], 0, .plain⟩
def F.QNC_LAYx_REG_COUNT : Field := ⟨R.QNC_LAYx_REG, 29, 16, .rw, .i, some (0, 8192)⟩
def F.QNC_LAYx_REG_BASE : Field := ⟨R.QNC_LAYx_REG, 12, 0, .rw, .i, none⟩
/-- QNC_LAYx_DIST -/
def R.QNC_LAYx_DIST : Reg := ⟨4194568, [(4, 32)], 65536000, .plain⟩
def F.QNC_LAYx_DIST_DSTEP : Field := ⟨R.QNC_LAYx_DIST, 31, 16, .rw, .i, some (1, 65535)⟩
/-- QNC_LAYx_DREF -/
def R.QNC_LAYx_DREF : Reg := ⟨4194572, [(4, 32)], 0, .plain⟩
def F.QNC_LAYx_DREF_DREF : Field := ⟨R.QNC_LAYx_DREF, 22, 0, .rw, .i, none⟩
/-- QNC_LAYx_NEAR -/
def R.QNC_LAYx_NEAR : Reg := ⟨4194576, [(4, 32)], 0, .plain⟩
def F.QNC_LAYx_NEAR_RNEAR : Field := ⟨R.QNC_LAYx_NEAR, 22, 0, .rw, .i, none⟩
/-- QNC_LAYx_TOL -/
def R.QNC_LAYx_TOL : Reg := ⟨4194580, [(4, 32)], 1024, .plain⟩
def F.QNC_LAYx_TOL_TOL : Field := ⟨R.QNC_LAYx_TOL, 19, 0, .rw, .i, none⟩
/-- QNC_LAYx_SPKs -/
def R.QNC_LAYx_SPKs : Reg := ⟨4198400, [(4, 2048), (512, 4)], 0, .plain⟩
def F.QNC_LAYx_SPKs_EN : Field := ⟨R.QNC_LAYx_SPKs, 31, 31, .rw, .i, none⟩
def F.QNC_LAYx_SPKs_OUT : Field := ⟨R.QNC_LAYx_SPKs, 8, 0, .rw, .i, none⟩
/-- QNC_LAYx_DISTi -/
def R.QNC_LAYx_DISTi : Reg := ⟨4206592, [(4, 1024), (256, 4)], 1048576, .plain⟩
def F.QNC_LAYx_DISTi_GAIN : Field := ⟨R.QNC_LAYx_DISTi, 23, 0, .rw, .i, none⟩
/-- QNC_OBJn_CFG -/
def R.QNC_OBJn_CFG : Reg := ⟨4259840, [(1024, 64)], 0, .plain⟩
def F.QNC_OBJn_CFG_EN : Field := ⟨R.QNC_OBJn_CFG, 31, 31, .rw, .i, none⟩
def F.QNC_OBJn_CFG_DLY_EN : Field := ⟨R.QNC_OBJn_CFG, 30, 30, .rw, .i, none⟩
def F.QNC_OBJn_CFG_SRC : Field := ⟨R.QNC_OBJn_CFG, 10, 0, .rw, .i, none⟩
/-- QNC_OBJn_X -/
def R.QNC_OBJn_X : Reg := ⟨4259844, [(1024, 64)], 0, .plain⟩
def F.QNC_OBJn_X_V : Field := ⟨R.QNC_OBJn_X, 23, 0, .ro, .o, none⟩
/-- QNC_OBJn_Y -/
def R.QNC_OBJn_Y : Reg := ⟨4259848, [(1024, 64)], 0, .plain⟩
def F.QNC_OBJn_Y_V : Field := ⟨R.QNC_OBJn_Y, 23, 0, .ro, .o, none⟩
/-- QNC_OBJn_Z -/
def R.QNC_OBJn_Z : Reg := ⟨4259852, [(1024, 64)], 0, .plain⟩
def F.QNC_OBJn_Z_V : Field := ⟨R.QNC_OBJn_Z, 23, 0, .ro, .o, none⟩
/-- QNC_OBJn_DIR -/
def R.QNC_OBJn_DIR : Reg := ⟨4259856, [(1024, 64)], 0, .plain⟩
def F.QNC_OBJn_DIR_EL : Field := ⟨R.QNC_OBJn_DIR, 31, 16, .ro, .o, none⟩
def F.QNC_OBJn_DIR_AZ : Field := ⟨R.QNC_OBJn_DIR, 15, 0, .ro, .o, none⟩
/-- QNC_OBJn_DIST -/
def R.QNC_OBJn_DIST : Reg := ⟨4259860, [(1024, 64)], 0, .plain⟩
def F.QNC_OBJn_DIST_D : Field := ⟨R.QNC_OBJn_DIST, 22, 0, .ro, .o, none⟩
/-- QNC_OBJn_GAIN -/
def R.QNC_OBJn_GAIN : Reg := ⟨4259864, [(1024, 64)], 32768, .plain⟩
def F.QNC_OBJn_GAIN_GAIN : Field := ⟨R.QNC_OBJn_GAIN, 15, 0, .ro, .o, none⟩
/-- QNC_OBJn_WIDTH -/
def R.QNC_OBJn_WIDTH : Reg := ⟨4259868, [(1024, 64)], 0, .plain⟩
def F.QNC_OBJn_WIDTH_SIZE : Field := ⟨R.QNC_OBJn_WIDTH, 31, 16, .ro, .o, none⟩
def F.QNC_OBJn_WIDTH_W : Field := ⟨R.QNC_OBJn_WIDTH, 15, 0, .ro, .o, none⟩
/-- QNC_OBJn_DELAY -/
def R.QNC_OBJn_DELAY : Reg := ⟨4259872, [(1024, 64)], 0, .plain⟩
def F.QNC_OBJn_DELAY_D : Field := ⟨R.QNC_OBJn_DELAY, 31, 0, .ro, .o, none⟩
/-- QNC_OBJn_STAT -/
def R.QNC_OBJn_STAT : Reg := ⟨4259876, [(1024, 64)], 0, .plain⟩
def F.QNC_OBJn_STAT_GLIDING : Field := ⟨R.QNC_OBJn_STAT, 16, 16, .ro, .o, none⟩
def F.QNC_OBJn_STAT_DCLAMP : Field := ⟨R.QNC_OBJn_STAT, 9, 9, .w1c, .o, none⟩
def F.QNC_OBJn_STAT_NOREGION : Field := ⟨R.QNC_OBJn_STAT, 8, 8, .w1c, .o, none⟩
def F.QNC_OBJn_STAT_NSPK : Field := ⟨R.QNC_OBJn_STAT, 5, 0, .ro, .o, none⟩
/-- QNC_OBJn_TPOS0 -/
def R.QNC_OBJn_TPOS0 : Reg := ⟨4259880, [(1024, 64)], 0, .plain⟩
def F.QNC_OBJn_TPOS0_V : Field := ⟨R.QNC_OBJn_TPOS0, 31, 0, .rw, .o, none⟩
/-- QNC_OBJn_TPOS1 -/
def R.QNC_OBJn_TPOS1 : Reg := ⟨4259884, [(1024, 64)], 0, .plain⟩
def F.QNC_OBJn_TPOS1_V : Field := ⟨R.QNC_OBJn_TPOS1, 31, 0, .rw, .o, none⟩
/-- QNC_OBJn_TPOS2 -/
def R.QNC_OBJn_TPOS2 : Reg := ⟨4259888, [(1024, 64)], 0, .plain⟩
def F.QNC_OBJn_TPOS2_V : Field := ⟨R.QNC_OBJn_TPOS2, 31, 0, .rw, .o, none⟩
/-- QNC_OBJn_TGAIN -/
def R.QNC_OBJn_TGAIN : Reg := ⟨4259892, [(1024, 64)], 32768, .plain⟩
def F.QNC_OBJn_TGAIN_SIZE : Field := ⟨R.QNC_OBJn_TGAIN, 31, 16, .rw, .o, none⟩
def F.QNC_OBJn_TGAIN_GAIN : Field := ⟨R.QNC_OBJn_TGAIN, 15, 0, .rw, .o, none⟩
/-- QNC_OBJn_TSHAPE -/
def R.QNC_OBJn_TSHAPE : Reg := ⟨4259896, [(1024, 64)], 0, .plain⟩
def F.QNC_OBJn_TSHAPE_GLIDE : Field := ⟨R.QNC_OBJn_TSHAPE, 31, 16, .rw, .o, none⟩
def F.QNC_OBJn_TSHAPE_SPREAD : Field := ⟨R.QNC_OBJn_TSHAPE, 15, 0, .rw, .o, none⟩
/-- QNC_OBJn_TFLAGS -/
def R.QNC_OBJn_TFLAGS : Reg := ⟨4259900, [(1024, 64)], 0, .plain⟩
def F.QNC_OBJn_TFLAGS_FLAGS : Field := ⟨R.QNC_OBJn_TFLAGS, 15, 0, .rw, .o, none⟩

/-- The QNC registers. -/
def regTableQnc : List RegEntry :=
  [⟨R.QNC_CTRL, [.safe], [F.QNC_CTRL_LXF, F.QNC_CTRL_ACTIVE]⟩,
   ⟨R.QNC_STAT, [], [F.QNC_STAT_OBJECTS, F.QNC_STAT_FADING, F.QNC_STAT_FROM, F.QNC_STAT_LIVE]⟩,
   ⟨R.QNC_EVT, [.evt], [F.QNC_EVT_SWAP_DONE, F.QNC_EVT_TBL_BUSY, F.QNC_EVT_DCLAMP, F.QNC_EVT_NOREGION]⟩,
   ⟨R.QNC_EVTEN, [], [F.QNC_EVTEN_SWAP_DONE, F.QNC_EVTEN_TBL_BUSY, F.QNC_EVTEN_DCLAMP, F.QNC_EVTEN_NOREGION]⟩,
   ⟨R.QNC_SOS, [], [F.QNC_SOS_SOS]⟩,
   ⟨R.QNC_DOPP, [], [F.QNC_DOPP_DJUMP]⟩,
   ⟨R.QNC_CNT_NOREGION, [], [F.QNC_CNT_NOREGION_V]⟩,
   ⟨R.QNC_CNT_DCLAMP, [], [F.QNC_CNT_DCLAMP_V]⟩,
   ⟨R.QNC_CNT_DJUMP, [], [F.QNC_CNT_DJUMP_V]⟩,
   ⟨R.QNC_CNT_DEFER, [], [F.QNC_CNT_DEFER_V]⟩,
   ⟨R.QNC_CNT_TBL_BUSY, [], [F.QNC_CNT_TBL_BUSY_V]⟩,
   ⟨R.QNC_CNT_CAPPED, [], [F.QNC_CNT_CAPPED_V]⟩,
   ⟨R.QNC_LAYx_CFG, [.safe], [F.QNC_LAYx_CFG_EN, F.QNC_LAYx_CFG_MAXSPK_M1, F.QNC_LAYx_CFG_NSPK_M1]⟩,
   ⟨R.QNC_LAYx_REG, [.safe], [F.QNC_LAYx_REG_COUNT, F.QNC_LAYx_REG_BASE]⟩,
   ⟨R.QNC_LAYx_DIST, [.safe], [F.QNC_LAYx_DIST_DSTEP]⟩,
   ⟨R.QNC_LAYx_DREF, [.safe], [F.QNC_LAYx_DREF_DREF]⟩,
   ⟨R.QNC_LAYx_NEAR, [.safe], [F.QNC_LAYx_NEAR_RNEAR]⟩,
   ⟨R.QNC_LAYx_TOL, [.safe], [F.QNC_LAYx_TOL_TOL]⟩,
   ⟨R.QNC_LAYx_SPKs, [.ltab], [F.QNC_LAYx_SPKs_EN, F.QNC_LAYx_SPKs_OUT]⟩,
   ⟨R.QNC_LAYx_DISTi, [.ltab], [F.QNC_LAYx_DISTi_GAIN]⟩,
   ⟨R.QNC_OBJn_CFG, [.safe, .obj], [F.QNC_OBJn_CFG_EN, F.QNC_OBJn_CFG_DLY_EN, F.QNC_OBJn_CFG_SRC]⟩,
   ⟨R.QNC_OBJn_X, [.obj], [F.QNC_OBJn_X_V]⟩,
   ⟨R.QNC_OBJn_Y, [.obj], [F.QNC_OBJn_Y_V]⟩,
   ⟨R.QNC_OBJn_Z, [.obj], [F.QNC_OBJn_Z_V]⟩,
   ⟨R.QNC_OBJn_DIR, [.obj], [F.QNC_OBJn_DIR_EL, F.QNC_OBJn_DIR_AZ]⟩,
   ⟨R.QNC_OBJn_DIST, [.obj], [F.QNC_OBJn_DIST_D]⟩,
   ⟨R.QNC_OBJn_GAIN, [.obj], [F.QNC_OBJn_GAIN_GAIN]⟩,
   ⟨R.QNC_OBJn_WIDTH, [.obj], [F.QNC_OBJn_WIDTH_SIZE, F.QNC_OBJn_WIDTH_W]⟩,
   ⟨R.QNC_OBJn_DELAY, [.obj], [F.QNC_OBJn_DELAY_D]⟩,
   ⟨R.QNC_OBJn_STAT, [.obj], [F.QNC_OBJn_STAT_GLIDING, F.QNC_OBJn_STAT_DCLAMP, F.QNC_OBJn_STAT_NOREGION, F.QNC_OBJn_STAT_NSPK]⟩,
   ⟨R.QNC_OBJn_TPOS0, [.safe, .obj], [F.QNC_OBJn_TPOS0_V]⟩,
   ⟨R.QNC_OBJn_TPOS1, [.safe, .obj], [F.QNC_OBJn_TPOS1_V]⟩,
   ⟨R.QNC_OBJn_TPOS2, [.safe, .obj], [F.QNC_OBJn_TPOS2_V]⟩,
   ⟨R.QNC_OBJn_TGAIN, [.safe, .obj], [F.QNC_OBJn_TGAIN_SIZE, F.QNC_OBJn_TGAIN_GAIN]⟩,
   ⟨R.QNC_OBJn_TSHAPE, [.safe, .obj], [F.QNC_OBJn_TSHAPE_GLIDE, F.QNC_OBJn_TSHAPE_SPREAD]⟩,
   ⟨R.QNC_OBJn_TFLAGS, [.safe, .obj], [F.QNC_OBJn_TFLAGS_FLAGS]⟩]

/-! ## RGN (R207, R220) -/

/-- RGNe_w -/
def R.RGNe_w : Reg := ⟨5242880, [(8192, 32), (8, 4)], 0, .plain⟩
def F.RGNe_w_V : Field := ⟨R.RGNe_w, 31, 0, .rw, .i, none⟩

/-- The RGN registers. -/
def regTableRgn : List RegEntry :=
  [⟨R.RGNe_w, [.ltab, .mem], [F.RGNe_w_V]⟩]

/-! ## GRID (R211, R220) -/

/-- GRIDx_c_w -/
def R.GRIDx_c_w : Reg := ⟨5505024, [(4, 65536), (8192, 8), (2, 4)], 0, .plain⟩
def F.GRIDx_c_w_V : Field := ⟨R.GRIDx_c_w, 31, 0, .rw, .i, none⟩

/-- The GRID registers. -/
def regTableGrid : List RegEntry :=
  [⟨R.GRIDx_c_w, [.ltab, .mem], [F.GRIDx_c_w_V]⟩]

/-! ## MIX (R224 to R237) -/

/-- MIX_STAT -/
def R.MIX_STAT : Reg := ⟨6291456, [], 0, .plain⟩
def F.MIX_STAT_FADES : Field := ⟨R.MIX_STAT, 16, 0, .ro, .o, none⟩
/-- MIX_ACTIVE -/
def R.MIX_ACTIVE : Reg := ⟨6291460, [], 0, .plain⟩
def F.MIX_ACTIVE_COUNT : Field := ⟨R.MIX_ACTIVE, 16, 0, .ro, .o, none⟩
/-- MIX_EVT -/
def R.MIX_EVT : Reg := ⟨6291464, [], 0, .plain⟩
def F.MIX_EVT_SWAP : Field := ⟨R.MIX_EVT, 2, 2, .w1c, .o, none⟩
def F.MIX_EVT_CLIP : Field := ⟨R.MIX_EVT, 1, 1, .w1c, .o, none⟩
def F.MIX_EVT_SAT : Field := ⟨R.MIX_EVT, 0, 0, .w1c, .o, none⟩
/-- MIX_EVTEN -/
def R.MIX_EVTEN : Reg := ⟨6291468, [], 0, .plain⟩
def F.MIX_EVTEN_SWAP : Field := ⟨R.MIX_EVTEN, 2, 2, .rw, .i, none⟩
def F.MIX_EVTEN_CLIP : Field := ⟨R.MIX_EVTEN, 1, 1, .rw, .i, none⟩
def F.MIX_EVTEN_SAT : Field := ⟨R.MIX_EVTEN, 0, 0, .rw, .i, none⟩
/-- MIX_SL_BLOCK_LO -/
def R.MIX_SL_BLOCK_LO : Reg := ⟨6291472, [], 0, .plain⟩
def F.MIX_SL_BLOCK_LO_V : Field := ⟨R.MIX_SL_BLOCK_LO, 31, 0, .ro, .o, none⟩
/-- MIX_SL_BLOCK_HI -/
def R.MIX_SL_BLOCK_HI : Reg := ⟨6291476, [], 0, .plain⟩
def F.MIX_SL_BLOCK_HI_V : Field := ⟨R.MIX_SL_BLOCK_HI, 31, 0, .ro, .o, none⟩
/-- MIX_CNT_SWAPS -/
def R.MIX_CNT_SWAPS : Reg := ⟨6291584, [], 0, .plain⟩
def F.MIX_CNT_SWAPS_V : Field := ⟨R.MIX_CNT_SWAPS, 31, 0, .ro, .o, none⟩

/-- The MIX registers. -/
def regTableMix : List RegEntry :=
  [⟨R.MIX_STAT, [], [F.MIX_STAT_FADES]⟩,
   ⟨R.MIX_ACTIVE, [], [F.MIX_ACTIVE_COUNT]⟩,
   ⟨R.MIX_EVT, [.evt], [F.MIX_EVT_SWAP, F.MIX_EVT_CLIP, F.MIX_EVT_SAT]⟩,
   ⟨R.MIX_EVTEN, [], [F.MIX_EVTEN_SWAP, F.MIX_EVTEN_CLIP, F.MIX_EVTEN_SAT]⟩,
   ⟨R.MIX_SL_BLOCK_LO, [], [F.MIX_SL_BLOCK_LO_V]⟩,
   ⟨R.MIX_SL_BLOCK_HI, [], [F.MIX_SL_BLOCK_HI_V]⟩,
   ⟨R.MIX_CNT_SWAPS, [], [F.MIX_CNT_SWAPS_V]⟩]

/-! ## OUT (R238 to R245) -/

/-- OUT_EVT -/
def R.OUT_EVT : Reg := ⟨6356992, [], 0, .plain⟩
def F.OUT_EVT_BQSAT : Field := ⟨R.OUT_EVT, 0, 0, .w1c, .o, none⟩
/-- OUT_EVTEN -/
def R.OUT_EVTEN : Reg := ⟨6356996, [], 0, .plain⟩
def F.OUT_EVTEN_BQSAT : Field := ⟨R.OUT_EVTEN, 0, 0, .rw, .i, none⟩
/-- OUT_CNT_BQSAT -/
def R.OUT_CNT_BQSAT : Reg := ⟨6357120, [], 0, .plain⟩
def F.OUT_CNT_BQSAT_V : Field := ⟨R.OUT_CNT_BQSAT, 31, 0, .ro, .o, none⟩
/-- OUTn_TRIM -/
def R.OUTn_TRIM : Reg := ⟨6361088, [(512, 32)], 360448, .plain⟩
def F.OUTn_TRIM_POL : Field := ⟨R.OUTn_TRIM, 31, 31, .rw, .i, none⟩
def F.OUTn_TRIM_RAMP : Field := ⟨R.OUTn_TRIM, 25, 16, .rw, .i, some (0, 1000)⟩
def F.OUTn_TRIM_TRIM : Field := ⟨R.OUTn_TRIM, 15, 0, .rw, .o, none⟩
/-- OUTn_DLY -/
def R.OUTn_DLY : Reg := ⟨6361092, [(512, 32)], 0, .plain⟩
def F.OUTn_DLY_DELAY : Field := ⟨R.OUTn_DLY, 17, 0, .rw, .i, none⟩
/-- OUTn_LIM -/
def R.OUTn_LIM : Reg := ⟨6361096, [(512, 32)], 65472, .plain⟩
def F.OUTn_LIM_EN : Field := ⟨R.OUTn_LIM, 31, 31, .rw, .i, none⟩
def F.OUTn_LIM_LA : Field := ⟨R.OUTn_LIM, 30, 30, .rw, .i, none⟩
def F.OUTn_LIM_KNEE : Field := ⟨R.OUTn_LIM, 26, 16, .rw, .i, some (0, 1536)⟩
def F.OUTn_LIM_CEIL : Field := ⟨R.OUTn_LIM, 15, 0, .rw, .i, some (-3072, 0)⟩
/-- OUTn_REL -/
def R.OUTn_REL : Reg := ⟨6361100, [(512, 32)], 100, .plain⟩
def F.OUTn_REL_RELEASE : Field := ⟨R.OUTn_REL, 10, 0, .rw, .i, some (1, 2000)⟩
/-- OUTn_STAT -/
def R.OUTn_STAT : Reg := ⟨6361104, [(512, 32)], 0, .plain⟩
def F.OUTn_STAT_XFADE : Field := ⟨R.OUTn_STAT, 31, 31, .ro, .o, none⟩
def F.OUTn_STAT_CLIP : Field := ⟨R.OUTn_STAT, 17, 17, .w1c, .o, none⟩
def F.OUTn_STAT_SAT : Field := ⟨R.OUTn_STAT, 16, 16, .w1c, .o, none⟩
def F.OUTn_STAT_GR : Field := ⟨R.OUTn_STAT, 15, 0, .ro, .o, none⟩
/-- OUTn_CNT_SAT -/
def R.OUTn_CNT_SAT : Reg := ⟨6361108, [(512, 32)], 0, .plain⟩
def F.OUTn_CNT_SAT_V : Field := ⟨R.OUTn_CNT_SAT, 31, 0, .ro, .o, none⟩
/-- OUTn_CNT_CLIP -/
def R.OUTn_CNT_CLIP : Reg := ⟨6361112, [(512, 32)], 0, .plain⟩
def F.OUTn_CNT_CLIP_V : Field := ⟨R.OUTn_CNT_CLIP, 31, 0, .ro, .o, none⟩
/-- OUTn_BQ -/
def R.OUTn_BQ : Reg := ⟨6361116, [(512, 32)], 0, .plain⟩
def F.OUTn_BQ_EN : Field := ⟨R.OUTn_BQ, 15, 0, .rw, .i, none⟩
/-- OUTn_BQk_Cc -/
def R.OUTn_BQk_Cc : Reg := ⟨6488064, [(512, 320), (16, 20), (5, 4)], 0, .identity⟩
def F.OUTn_BQk_Cc_COEF : Field := ⟨R.OUTn_BQk_Cc, 23, 0, .rw, .i, none⟩
/-- OUTn_FIRLEN -/
def R.OUTn_FIRLEN : Reg := ⟨6651904, [(512, 4)], 0, .plain⟩
def F.OUTn_FIRLEN_LEN : Field := ⟨R.OUTn_FIRLEN, 7, 0, .rw, .i, none⟩
/-- OUTn_FIRj -/
def R.OUTn_FIRj : Reg := ⟨6881280, [(512, 512), (128, 4)], 0, .identity⟩
def F.OUTn_FIRj_TAP : Field := ⟨R.OUTn_FIRj, 23, 0, .rw, .i, none⟩

/-- The OUT registers. -/
def regTableOut : List RegEntry :=
  [⟨R.OUT_EVT, [.evt], [F.OUT_EVT_BQSAT]⟩,
   ⟨R.OUT_EVTEN, [], [F.OUT_EVTEN_BQSAT]⟩,
   ⟨R.OUT_CNT_BQSAT, [], [F.OUT_CNT_BQSAT_V]⟩,
   ⟨R.OUTn_TRIM, [.safe, .out], [F.OUTn_TRIM_POL, F.OUTn_TRIM_RAMP, F.OUTn_TRIM_TRIM]⟩,
   ⟨R.OUTn_DLY, [.safe, .out], [F.OUTn_DLY_DELAY]⟩,
   ⟨R.OUTn_LIM, [.safe, .out], [F.OUTn_LIM_EN, F.OUTn_LIM_LA, F.OUTn_LIM_KNEE, F.OUTn_LIM_CEIL]⟩,
   ⟨R.OUTn_REL, [.safe, .out], [F.OUTn_REL_RELEASE]⟩,
   ⟨R.OUTn_STAT, [.out], [F.OUTn_STAT_XFADE, F.OUTn_STAT_CLIP, F.OUTn_STAT_SAT, F.OUTn_STAT_GR]⟩,
   ⟨R.OUTn_CNT_SAT, [.out], [F.OUTn_CNT_SAT_V]⟩,
   ⟨R.OUTn_CNT_CLIP, [.out], [F.OUTn_CNT_CLIP_V]⟩,
   ⟨R.OUTn_BQ, [.safe, .out], [F.OUTn_BQ_EN]⟩,
   ⟨R.OUTn_BQk_Cc, [.safe, .out], [F.OUTn_BQk_Cc_COEF]⟩,
   ⟨R.OUTn_FIRLEN, [.safe, .out, .fir], [F.OUTn_FIRLEN_LEN]⟩,
   ⟨R.OUTn_FIRj, [.safe, .out, .fir], [F.OUTn_FIRj_TAP]⟩]

/-! ## XP (R224, R229) -/

/-- XPRx_W0 -/
def R.XPRx_W0 : Reg := ⟨8388608, [(32768, 8)], 0, .plain⟩
def F.XPRx_W0_ACTIVE : Field := ⟨R.XPRx_W0, 31, 31, .ro, .o, none⟩
def F.XPRx_W0_X : Field := ⟨R.XPRx_W0, 23, 0, .ro, .o, none⟩
/-- XPRx_W1 -/
def R.XPRx_W1 : Reg := ⟨8388612, [(32768, 8)], 0, .plain⟩
def F.XPRx_W1_BUS : Field := ⟨R.XPRx_W1, 8, 0, .ro, .o, none⟩
/-- XPDx_W0 -/
def R.XPDx_W0 : Reg := ⟨8650752, [(98304, 8)], 0, .plain⟩
def F.XPDx_W0_EN : Field := ⟨R.XPDx_W0, 31, 31, .rw, .i, none⟩
def F.XPDx_W0_POL : Field := ⟨R.XPDx_W0, 30, 30, .rw, .i, none⟩
def F.XPDx_W0_FADING : Field := ⟨R.XPDx_W0, 29, 29, .ro, .o, none⟩
def F.XPDx_W0_GAIN : Field := ⟨R.XPDx_W0, 23, 0, .rw, .o, none⟩
/-- XPDx_W1 -/
def R.XPDx_W1 : Reg := ⟨8650756, [(98304, 8)], 20971520, .plain⟩
def F.XPDx_W1_RAMP : Field := ⟨R.XPDx_W1, 31, 22, .rw, .i, some (0, 1000)⟩
def F.XPDx_W1_SKIND : Field := ⟨R.XPDx_W1, 21, 20, .rw, .i, none⟩
def F.XPDx_W1_SRC : Field := ⟨R.XPDx_W1, 19, 9, .rw, .i, none⟩
def F.XPDx_W1_BUS : Field := ⟨R.XPDx_W1, 8, 0, .rw, .i, none⟩

/-- The XP registers. -/
def regTableXp : List RegEntry :=
  [⟨R.XPRx_W0, [.xpr, .mem], [F.XPRx_W0_ACTIVE, F.XPRx_W0_X]⟩,
   ⟨R.XPRx_W1, [.xpr, .mem], [F.XPRx_W1_BUS]⟩,
   ⟨R.XPDx_W0, [.safe, .mem], [F.XPDx_W0_EN, F.XPDx_W0_POL, F.XPDx_W0_FADING, F.XPDx_W0_GAIN]⟩,
   ⟨R.XPDx_W1, [.safe, .mem], [F.XPDx_W1_RAMP, F.XPDx_W1_SKIND, F.XPDx_W1_SRC, F.XPDx_W1_BUS]⟩]

/-! ## CNV (R246 to R262) -/

/-- CNV_STAT -/
def R.CNV_STAT : Reg := ⟨10485760, [], 0, .plain⟩
def F.CNV_STAT_FADES : Field := ⟨R.CNV_STAT, 25, 16, .ro, .o, none⟩
/-- CNV_LIVE -/
def R.CNV_LIVE : Reg := ⟨10485764, [], 0, .plain⟩
def F.CNV_LIVE_TAPS : Field := ⟨R.CNV_LIVE, 21, 0, .ro, .o, none⟩
/-- CNV_EVT -/
def R.CNV_EVT : Reg := ⟨10485768, [], 0, .plain⟩
def F.CNV_EVT_SAT : Field := ⟨R.CNV_EVT, 4, 4, .w1c, .o, none⟩
def F.CNV_EVT_BUSY_WR : Field := ⟨R.CNV_EVT, 3, 3, .w1c, .o, none⟩
def F.CNV_EVT_STAGE_ERR : Field := ⟨R.CNV_EVT, 2, 2, .w1c, .o, none⟩
def F.CNV_EVT_STAGE_DONE : Field := ⟨R.CNV_EVT, 1, 1, .w1c, .o, none⟩
def F.CNV_EVT_XF_DONE : Field := ⟨R.CNV_EVT, 0, 0, .w1c, .o, none⟩
/-- CNV_EVTEN -/
def R.CNV_EVTEN : Reg := ⟨10485772, [], 0, .plain⟩
def F.CNV_EVTEN_SAT : Field := ⟨R.CNV_EVTEN, 4, 4, .rw, .i, none⟩
def F.CNV_EVTEN_BUSY_WR : Field := ⟨R.CNV_EVTEN, 3, 3, .rw, .i, none⟩
def F.CNV_EVTEN_STAGE_ERR : Field := ⟨R.CNV_EVTEN, 2, 2, .rw, .i, none⟩
def F.CNV_EVTEN_STAGE_DONE : Field := ⟨R.CNV_EVTEN, 1, 1, .rw, .i, none⟩
def F.CNV_EVTEN_XF_DONE : Field := ⟨R.CNV_EVTEN, 0, 0, .rw, .i, none⟩
/-- CNV_STAGE_SRC_LO -/
def R.CNV_STAGE_SRC_LO : Reg := ⟨10485792, [], 0, .plain⟩
def F.CNV_STAGE_SRC_LO_V : Field := ⟨R.CNV_STAGE_SRC_LO, 31, 0, .rw, .i, none⟩
/-- CNV_STAGE_SRC_HI -/
def R.CNV_STAGE_SRC_HI : Reg := ⟨10485796, [], 0, .plain⟩
def F.CNV_STAGE_SRC_HI_V : Field := ⟨R.CNV_STAGE_SRC_HI, 1, 0, .rw, .i, none⟩
/-- CNV_STAGE_DST -/
def R.CNV_STAGE_DST : Reg := ⟨10485800, [], 0, .plain⟩
def F.CNV_STAGE_DST_BANK : Field := ⟨R.CNV_STAGE_DST, 24, 24, .rw, .i, none⟩
def F.CNV_STAGE_DST_CELL : Field := ⟨R.CNV_STAGE_DST, 20, 0, .rw, .i, none⟩
/-- CNV_STAGE_CNT -/
def R.CNV_STAGE_CNT : Reg := ⟨10485804, [], 0, .plain⟩
def F.CNV_STAGE_CNT_COUNT : Field := ⟨R.CNV_STAGE_CNT, 21, 0, .rw, .i, none⟩
/-- CNV_STAGE_CTRL -/
def R.CNV_STAGE_CTRL : Reg := ⟨10485808, [], 0, .plain⟩
def F.CNV_STAGE_CTRL_FMT : Field := ⟨R.CNV_STAGE_CTRL, 1, 1, .rw, .i, none⟩
def F.CNV_STAGE_CTRL_GO : Field := ⟨R.CNV_STAGE_CTRL, 0, 0, .w1s, .i, none⟩
/-- CNV_STAGE_STAT -/
def R.CNV_STAGE_STAT : Reg := ⟨10485812, [], 0, .plain⟩
def F.CNV_STAGE_STAT_BUSY : Field := ⟨R.CNV_STAGE_STAT, 31, 31, .ro, .o, none⟩
def F.CNV_STAGE_STAT_ERR : Field := ⟨R.CNV_STAGE_STAT, 19, 16, .ro, .o, none⟩
/-- CNV_CNT_SAT -/
def R.CNV_CNT_SAT : Reg := ⟨10485888, [], 0, .plain⟩
def F.CNV_CNT_SAT_V : Field := ⟨R.CNV_CNT_SAT, 31, 0, .ro, .o, none⟩
/-- CNV_CNT_BUSY_WR -/
def R.CNV_CNT_BUSY_WR : Reg := ⟨10485892, [], 0, .plain⟩
def F.CNV_CNT_BUSY_WR_V : Field := ⟨R.CNV_CNT_BUSY_WR, 31, 0, .ro, .o, none⟩
/-- CNV_CNT_STAGED -/
def R.CNV_CNT_STAGED : Reg := ⟨10485896, [], 0, .plain⟩
def F.CNV_CNT_STAGED_V : Field := ⟨R.CNV_CNT_STAGED, 31, 0, .ro, .o, none⟩
/-- CNV_CNT_XFADE -/
def R.CNV_CNT_XFADE : Reg := ⟨10485900, [], 0, .plain⟩
def F.CNV_CNT_XFADE_V : Field := ⟨R.CNV_CNT_XFADE, 31, 0, .ro, .o, none⟩
/-- CNV_OUTn_SEL -/
def R.CNV_OUTn_SEL : Reg := ⟨10489856, [(512, 16)], 0, .plain⟩
def F.CNV_OUTn_SEL_EN : Field := ⟨R.CNV_OUTn_SEL, 31, 31, .rw, .i, none⟩
def F.CNV_OUTn_SEL_BANK : Field := ⟨R.CNV_OUTn_SEL, 30, 30, .rw, .i, none⟩
def F.CNV_OUTn_SEL_BASE : Field := ⟨R.CNV_OUTn_SEL, 16, 0, .rw, .i, none⟩
/-- CNV_OUTn_LEN -/
def R.CNV_OUTn_LEN : Reg := ⟨10489860, [(512, 16)], 1, .plain⟩
def F.CNV_OUTn_LEN_LEN : Field := ⟨R.CNV_OUTn_LEN, 14, 0, .rw, .i, some (1, 16384)⟩
/-- CNV_OUTn_STAT -/
def R.CNV_OUTn_STAT : Reg := ⟨10489864, [(512, 16)], 0, .plain⟩
def F.CNV_OUTn_STAT_FADING : Field := ⟨R.CNV_OUTn_STAT, 31, 31, .ro, .o, none⟩

/-- The CNV registers. -/
def regTableCnv : List RegEntry :=
  [⟨R.CNV_STAT, [], [F.CNV_STAT_FADES]⟩,
   ⟨R.CNV_LIVE, [], [F.CNV_LIVE_TAPS]⟩,
   ⟨R.CNV_EVT, [.evt], [F.CNV_EVT_SAT, F.CNV_EVT_BUSY_WR, F.CNV_EVT_STAGE_ERR, F.CNV_EVT_STAGE_DONE, F.CNV_EVT_XF_DONE]⟩,
   ⟨R.CNV_EVTEN, [], [F.CNV_EVTEN_SAT, F.CNV_EVTEN_BUSY_WR, F.CNV_EVTEN_STAGE_ERR, F.CNV_EVTEN_STAGE_DONE, F.CNV_EVTEN_XF_DONE]⟩,
   ⟨R.CNV_STAGE_SRC_LO, [], [F.CNV_STAGE_SRC_LO_V]⟩,
   ⟨R.CNV_STAGE_SRC_HI, [], [F.CNV_STAGE_SRC_HI_V]⟩,
   ⟨R.CNV_STAGE_DST, [], [F.CNV_STAGE_DST_BANK, F.CNV_STAGE_DST_CELL]⟩,
   ⟨R.CNV_STAGE_CNT, [], [F.CNV_STAGE_CNT_COUNT]⟩,
   ⟨R.CNV_STAGE_CTRL, [], [F.CNV_STAGE_CTRL_FMT, F.CNV_STAGE_CTRL_GO]⟩,
   ⟨R.CNV_STAGE_STAT, [], [F.CNV_STAGE_STAT_BUSY, F.CNV_STAGE_STAT_ERR]⟩,
   ⟨R.CNV_CNT_SAT, [], [F.CNV_CNT_SAT_V]⟩,
   ⟨R.CNV_CNT_BUSY_WR, [], [F.CNV_CNT_BUSY_WR_V]⟩,
   ⟨R.CNV_CNT_STAGED, [], [F.CNV_CNT_STAGED_V]⟩,
   ⟨R.CNV_CNT_XFADE, [], [F.CNV_CNT_XFADE_V]⟩,
   ⟨R.CNV_OUTn_SEL, [.safe, .out], [F.CNV_OUTn_SEL_EN, F.CNV_OUTn_SEL_BANK, F.CNV_OUTn_SEL_BASE]⟩,
   ⟨R.CNV_OUTn_LEN, [.safe, .out], [F.CNV_OUTn_LEN_LEN]⟩,
   ⟨R.CNV_OUTn_STAT, [.out], [F.CNV_OUTn_STAT_FADING]⟩]

/-! ## LDC (R263 to R290) -/

/-- LDCc_CTRL -/
def R.LDCc_CTRL : Reg := ⟨42401792, [(32, 524288)], 1124073472, .plain⟩
def F.LDCc_CTRL_RUN : Field := ⟨R.LDCc_CTRL, 31, 31, .rw, .i, none⟩
def F.LDCc_CTRL_OVR_CLEAR : Field := ⟨R.LDCc_CTRL, 30, 30, .rw, .i, none⟩
def F.LDCc_CTRL_WDOG_N : Field := ⟨R.LDCc_CTRL, 27, 24, .rw, .i, some (1, 15)⟩
/-- LDCc_STAT -/
def R.LDCc_STAT : Reg := ⟨42401796, [(32, 524288)], 0, .plain⟩
def F.LDCc_STAT_STATE : Field := ⟨R.LDCc_STAT, 31, 30, .ro, .o, none⟩
def F.LDCc_STAT_SHADOW : Field := ⟨R.LDCc_STAT, 29, 29, .ro, .o, none⟩
def F.LDCc_STAT_REP : Field := ⟨R.LDCc_STAT, 28, 28, .ro, .o, none⟩
def F.LDCc_STAT_LSQ : Field := ⟨R.LDCc_STAT, 27, 24, .ro, .o, none⟩
def F.LDCc_STAT_CONSEC : Field := ⟨R.LDCc_STAT, 23, 20, .ro, .o, none⟩
def F.LDCc_STAT_PC : Field := ⟨R.LDCc_STAT, 13, 0, .ro, .o, none⟩
/-- LDCc_EVT -/
def R.LDCc_EVT : Reg := ⟨42401800, [(32, 524288)], 0, .plain⟩
def F.LDCc_EVT_PGM_BUSY : Field := ⟨R.LDCc_EVT, 4, 4, .w1c, .o, none⟩
def F.LDCc_EVT_ILLEGAL : Field := ⟨R.LDCc_EVT, 3, 3, .w1c, .o, none⟩
def F.LDCc_EVT_FABERR : Field := ⟨R.LDCc_EVT, 2, 2, .w1c, .o, none⟩
def F.LDCc_EVT_WDOG : Field := ⟨R.LDCc_EVT, 1, 1, .w1c, .o, none⟩
def F.LDCc_EVT_OVERRUN : Field := ⟨R.LDCc_EVT, 0, 0, .w1c, .o, none⟩
/-- LDCc_EVTEN -/
def R.LDCc_EVTEN : Reg := ⟨42401804, [(32, 524288)], 0, .plain⟩
def F.LDCc_EVTEN_PGM_BUSY : Field := ⟨R.LDCc_EVTEN, 4, 4, .rw, .i, none⟩
def F.LDCc_EVTEN_ILLEGAL : Field := ⟨R.LDCc_EVTEN, 3, 3, .rw, .i, none⟩
def F.LDCc_EVTEN_FABERR : Field := ⟨R.LDCc_EVTEN, 2, 2, .rw, .i, none⟩
def F.LDCc_EVTEN_WDOG : Field := ⟨R.LDCc_EVTEN, 1, 1, .rw, .i, none⟩
def F.LDCc_EVTEN_OVERRUN : Field := ⟨R.LDCc_EVTEN, 0, 0, .rw, .i, none⟩
/-- LDCc_VEC -/
def R.LDCc_VEC : Reg := ⟨42401808, [(32, 524288)], 0, .plain⟩
def F.LDCc_VEC_IRQ_VEC : Field := ⟨R.LDCc_VEC, 29, 16, .rw, .i, none⟩
def F.LDCc_VEC_BLOCK_VEC : Field := ⟨R.LDCc_VEC, 13, 0, .rw, .i, none⟩
/-- LDCc_FWIN -/
def R.LDCc_FWIN : Reg := ⟨42401812, [(32, 524288)], 0, .plain⟩
def F.LDCc_FWIN_BASE : Field := ⟨R.LDCc_FWIN, 16, 0, .rw, .i, none⟩
/-- LDCc_STATE -/
def R.LDCc_STATE : Reg := ⟨42401816, [(32, 524288)], 0, .plain⟩
def F.LDCc_STATE_END : Field := ⟨R.LDCc_STATE, 30, 16, .rw, .i, none⟩
def F.LDCc_STATE_BASE : Field := ⟨R.LDCc_STATE, 14, 0, .rw, .i, none⟩
/-- LDCc_IRQ_PEND -/
def R.LDCc_IRQ_PEND : Reg := ⟨42401820, [(32, 524288)], 0, .plain⟩
def F.LDCc_IRQ_PEND_DMA_DONE : Field := ⟨R.LDCc_IRQ_PEND, 2, 2, .w1c, .o, none⟩
def F.LDCc_IRQ_PEND_TIMER : Field := ⟨R.LDCc_IRQ_PEND, 1, 1, .w1c, .o, none⟩
def F.LDCc_IRQ_PEND_DOORBELL : Field := ⟨R.LDCc_IRQ_PEND, 0, 0, .w1c, .o, none⟩
/-- LDCc_IRQ_EN -/
def R.LDCc_IRQ_EN : Reg := ⟨42401824, [(32, 524288)], 0, .plain⟩
def F.LDCc_IRQ_EN_EN : Field := ⟨R.LDCc_IRQ_EN, 2, 0, .rw, .i, none⟩
/-- LDCc_DOORBELL -/
def R.LDCc_DOORBELL : Reg := ⟨42401828, [(32, 524288)], 0, .plain⟩
def F.LDCc_DOORBELL_RING : Field := ⟨R.LDCc_DOORBELL, 0, 0, .w1s, .i, none⟩
/-- LDCc_TIMER -/
def R.LDCc_TIMER : Reg := ⟨42401832, [(32, 524288)], 0, .plain⟩
def F.LDCc_TIMER_COUNT : Field := ⟨R.LDCc_TIMER, 31, 0, .rw, .i, none⟩
/-- LDCc_CYCLES -/
def R.LDCc_CYCLES : Reg := ⟨42401840, [(32, 524288)], 0, .plain⟩
def F.LDCc_CYCLES_LAST : Field := ⟨R.LDCc_CYCLES, 19, 0, .ro, .o, none⟩
/-- LDCc_PEAK -/
def R.LDCc_PEAK : Reg := ⟨42401844, [(32, 524288)], 0, .plain⟩
def F.LDCc_PEAK_CLR : Field := ⟨R.LDCc_PEAK, 31, 31, .w1s, .o, none⟩
def F.LDCc_PEAK_PEAK : Field := ⟨R.LDCc_PEAK, 19, 0, .ro, .o, none⟩
/-- LDCc_STALL -/
def R.LDCc_STALL : Reg := ⟨42401848, [(32, 524288)], 0, .plain⟩
def F.LDCc_STALL_STALL : Field := ⟨R.LDCc_STALL, 19, 0, .ro, .o, none⟩
/-- LDCc_CNT_OVERRUN -/
def R.LDCc_CNT_OVERRUN : Reg := ⟨42401920, [(32, 524288)], 0, .plain⟩
def F.LDCc_CNT_OVERRUN_V : Field := ⟨R.LDCc_CNT_OVERRUN, 31, 0, .ro, .o, none⟩
/-- LDCc_CNT_FABERR -/
def R.LDCc_CNT_FABERR : Reg := ⟨42401924, [(32, 524288)], 0, .plain⟩
def F.LDCc_CNT_FABERR_V : Field := ⟨R.LDCc_CNT_FABERR, 31, 0, .ro, .o, none⟩
/-- LDCc_CNT_BLOCKS -/
def R.LDCc_CNT_BLOCKS : Reg := ⟨42401928, [(32, 524288)], 0, .plain⟩
def F.LDCc_CNT_BLOCKS_V : Field := ⟨R.LDCc_CNT_BLOCKS, 31, 0, .ro, .o, none⟩
/-- LDCc_XINf -/
def R.LDCc_XINf : Reg := ⟨42405888, [(32, 524288), (256, 4)], 0, .plain⟩
def F.LDCc_XINf_EN : Field := ⟨R.LDCc_XINf, 31, 31, .img, .i, none⟩
def F.LDCc_XINf_KIND : Field := ⟨R.LDCc_XINf, 30, 30, .img, .i, none⟩
def F.LDCc_XINf_INDEX : Field := ⟨R.LDCc_XINf, 10, 0, .img, .i, none⟩
/-- LDCc_XOUTf -/
def R.LDCc_XOUTf : Reg := ⟨42406912, [(32, 524288), (256, 4)], 0, .plain⟩
def F.LDCc_XOUTf_EN : Field := ⟨R.LDCc_XOUTf, 31, 31, .img, .i, none⟩
def F.LDCc_XOUTf_KIND : Field := ⟨R.LDCc_XOUTf, 30, 30, .img, .i, none⟩
def F.LDCc_XOUTf_INDEX : Field := ⟨R.LDCc_XOUTf, 10, 0, .img, .i, none⟩
/-- LDC_RUN -/
def R.LDC_RUN : Reg := ⟨42434560, [(32, 524288)], 0, .plain⟩
def F.LDC_RUN_RUN : Field := ⟨R.LDC_RUN, 31, 0, .ro, .o, none⟩
/-- LDC_PEND -/
def R.LDC_PEND : Reg := ⟨42434564, [(32, 524288)], 0, .plain⟩
def F.LDC_PEND_PEND : Field := ⟨R.LDC_PEND, 31, 0, .ro, .o, none⟩
/-- LDC_OVR -/
def R.LDC_OVR : Reg := ⟨42434568, [(32, 524288)], 0, .plain⟩
def F.LDC_OVR_OVR : Field := ⟨R.LDC_OVR, 31, 0, .ro, .o, none⟩
/-- LDC_CFG -/
def R.LDC_CFG : Reg := ⟨42434572, [(32, 524288)], 0, .plain⟩
def F.LDC_CFG_WDT_RST : Field := ⟨R.LDC_CFG, 0, 0, .rw, .m, none⟩

/-- The LDC registers. -/
def regTableLdc : List RegEntry :=
  [⟨R.LDCc_CTRL, [.core], [F.LDCc_CTRL_RUN, F.LDCc_CTRL_OVR_CLEAR, F.LDCc_CTRL_WDOG_N]⟩,
   ⟨R.LDCc_STAT, [.core], [F.LDCc_STAT_STATE, F.LDCc_STAT_SHADOW, F.LDCc_STAT_REP, F.LDCc_STAT_LSQ, F.LDCc_STAT_CONSEC, F.LDCc_STAT_PC]⟩,
   ⟨R.LDCc_EVT, [.evt, .core], [F.LDCc_EVT_PGM_BUSY, F.LDCc_EVT_ILLEGAL, F.LDCc_EVT_FABERR, F.LDCc_EVT_WDOG, F.LDCc_EVT_OVERRUN]⟩,
   ⟨R.LDCc_EVTEN, [.core], [F.LDCc_EVTEN_PGM_BUSY, F.LDCc_EVTEN_ILLEGAL, F.LDCc_EVTEN_FABERR, F.LDCc_EVTEN_WDOG, F.LDCc_EVTEN_OVERRUN]⟩,
   ⟨R.LDCc_VEC, [.core], [F.LDCc_VEC_IRQ_VEC, F.LDCc_VEC_BLOCK_VEC]⟩,
   ⟨R.LDCc_FWIN, [.core], [F.LDCc_FWIN_BASE]⟩,
   ⟨R.LDCc_STATE, [.core], [F.LDCc_STATE_END, F.LDCc_STATE_BASE]⟩,
   ⟨R.LDCc_IRQ_PEND, [.core], [F.LDCc_IRQ_PEND_DMA_DONE, F.LDCc_IRQ_PEND_TIMER, F.LDCc_IRQ_PEND_DOORBELL]⟩,
   ⟨R.LDCc_IRQ_EN, [.core], [F.LDCc_IRQ_EN_EN]⟩,
   ⟨R.LDCc_DOORBELL, [.core], [F.LDCc_DOORBELL_RING]⟩,
   ⟨R.LDCc_TIMER, [.core], [F.LDCc_TIMER_COUNT]⟩,
   ⟨R.LDCc_CYCLES, [.core], [F.LDCc_CYCLES_LAST]⟩,
   ⟨R.LDCc_PEAK, [.core], [F.LDCc_PEAK_CLR, F.LDCc_PEAK_PEAK]⟩,
   ⟨R.LDCc_STALL, [.core], [F.LDCc_STALL_STALL]⟩,
   ⟨R.LDCc_CNT_OVERRUN, [.core], [F.LDCc_CNT_OVERRUN_V]⟩,
   ⟨R.LDCc_CNT_FABERR, [.core], [F.LDCc_CNT_FABERR_V]⟩,
   ⟨R.LDCc_CNT_BLOCKS, [.core], [F.LDCc_CNT_BLOCKS_V]⟩,
   ⟨R.LDCc_XINf, [.core], [F.LDCc_XINf_EN, F.LDCc_XINf_KIND, F.LDCc_XINf_INDEX]⟩,
   ⟨R.LDCc_XOUTf, [.core], [F.LDCc_XOUTf_EN, F.LDCc_XOUTf_KIND, F.LDCc_XOUTf_INDEX]⟩,
   ⟨R.LDC_RUN, [.core, .shared], [F.LDC_RUN_RUN]⟩,
   ⟨R.LDC_PEND, [.core, .shared], [F.LDC_PEND_PEND]⟩,
   ⟨R.LDC_OVR, [.core, .shared], [F.LDC_OVR_OVR]⟩,
   ⟨R.LDC_CFG, [.core, .shared], [F.LDC_CFG_WDT_RST]⟩]

/-! ## CAS (R309 to R340) -/

/-- CAS_CFG -/
def R.CAS_CFG : Reg := ⟨58720256, [], 0, .plain⟩
def F.CAS_CFG_EN : Field := ⟨R.CAS_CFG, 31, 31, .img, .i, none⟩
def F.CAS_CFG_HEAD : Field := ⟨R.CAS_CFG, 30, 30, .img, .i, none⟩
def F.CAS_CFG_SIZE_M1 : Field := ⟨R.CAS_CFG, 13, 8, .img, .i, none⟩
def F.CAS_CFG_DEV : Field := ⟨R.CAS_CFG, 5, 0, .img, .i, none⟩
/-- CAS_STAT -/
def R.CAS_STAT : Reg := ⟨58720260, [], 0, .plain⟩
def F.CAS_STAT_UP_LINK : Field := ⟨R.CAS_STAT, 17, 17, .ro, .o, none⟩
def F.CAS_STAT_DN_LINK : Field := ⟨R.CAS_STAT, 16, 16, .ro, .o, none⟩
def F.CAS_STAT_OPEN : Field := ⟨R.CAS_STAT, 13, 8, .ro, .o, none⟩
def F.CAS_STAT_BYPASS : Field := ⟨R.CAS_STAT, 3, 3, .ro, .o, none⟩
def F.CAS_STAT_STATE : Field := ⟨R.CAS_STAT, 2, 0, .ro, .o, none⟩
/-- CAS_EVT -/
def R.CAS_EVT : Reg := ⟨58720264, [], 0, .plain⟩
def F.CAS_EVT_TUN_BUSY : Field := ⟨R.CAS_EVT, 12, 12, .w1c, .o, none⟩
def F.CAS_EVT_LATE : Field := ⟨R.CAS_EVT, 11, 11, .w1c, .o, none⟩
def F.CAS_EVT_ZEROED_RX : Field := ⟨R.CAS_EVT, 10, 10, .w1c, .o, none⟩
def F.CAS_EVT_TAG_ERR : Field := ⟨R.CAS_EVT, 9, 9, .w1c, .o, none⟩
def F.CAS_EVT_LINE_ERR : Field := ⟨R.CAS_EVT, 8, 8, .w1c, .o, none⟩
def F.CAS_EVT_SAT : Field := ⟨R.CAS_EVT, 7, 7, .w1c, .o, none⟩
def F.CAS_EVT_HEAD_CONFLICT : Field := ⟨R.CAS_EVT, 6, 6, .w1c, .o, none⟩
def F.CAS_EVT_CFG_MISMATCH : Field := ⟨R.CAS_EVT, 5, 5, .w1c, .o, none⟩
def F.CAS_EVT_POS_MISMATCH : Field := ⟨R.CAS_EVT, 4, 4, .w1c, .o, none⟩
def F.CAS_EVT_BYPASS : Field := ⟨R.CAS_EVT, 3, 3, .w1c, .o, none⟩
def F.CAS_EVT_ISOLATED : Field := ⟨R.CAS_EVT, 2, 2, .w1c, .o, none⟩
def F.CAS_EVT_RESTORE : Field := ⟨R.CAS_EVT, 1, 1, .w1c, .o, none⟩
def F.CAS_EVT_WRAP : Field := ⟨R.CAS_EVT, 0, 0, .w1c, .o, none⟩
/-- CAS_EVTEN -/
def R.CAS_EVTEN : Reg := ⟨58720268, [], 0, .plain⟩
def F.CAS_EVTEN_TUN_BUSY : Field := ⟨R.CAS_EVTEN, 12, 12, .rw, .i, none⟩
def F.CAS_EVTEN_LATE : Field := ⟨R.CAS_EVTEN, 11, 11, .rw, .i, none⟩
def F.CAS_EVTEN_ZEROED_RX : Field := ⟨R.CAS_EVTEN, 10, 10, .rw, .i, none⟩
def F.CAS_EVTEN_TAG_ERR : Field := ⟨R.CAS_EVTEN, 9, 9, .rw, .i, none⟩
def F.CAS_EVTEN_LINE_ERR : Field := ⟨R.CAS_EVTEN, 8, 8, .rw, .i, none⟩
def F.CAS_EVTEN_SAT : Field := ⟨R.CAS_EVTEN, 7, 7, .rw, .i, none⟩
def F.CAS_EVTEN_HEAD_CONFLICT : Field := ⟨R.CAS_EVTEN, 6, 6, .rw, .i, none⟩
def F.CAS_EVTEN_CFG_MISMATCH : Field := ⟨R.CAS_EVTEN, 5, 5, .rw, .i, none⟩
def F.CAS_EVTEN_POS_MISMATCH : Field := ⟨R.CAS_EVTEN, 4, 4, .rw, .i, none⟩
def F.CAS_EVTEN_BYPASS : Field := ⟨R.CAS_EVTEN, 3, 3, .rw, .i, none⟩
def F.CAS_EVTEN_ISOLATED : Field := ⟨R.CAS_EVTEN, 2, 2, .rw, .i, none⟩
def F.CAS_EVTEN_RESTORE : Field := ⟨R.CAS_EVTEN, 1, 1, .rw, .i, none⟩
def F.CAS_EVTEN_WRAP : Field := ⟨R.CAS_EVTEN, 0, 0, .rw, .i, none⟩
/-- CAS_LINKDLY_DN -/
def R.CAS_LINKDLY_DN : Reg := ⟨58720272, [], 0, .plain⟩
def F.CAS_LINKDLY_DN_DELAY : Field := ⟨R.CAS_LINKDLY_DN, 31, 0, .ro, .o, none⟩
/-- CAS_LINKDLY_UP -/
def R.CAS_LINKDLY_UP : Reg := ⟨58720276, [], 0, .plain⟩
def F.CAS_LINKDLY_UP_DELAY : Field := ⟨R.CAS_LINKDLY_UP, 31, 0, .ro, .o, none⟩
/-- CAS_RST -/
def R.CAS_RST : Reg := ⟨58720280, [], 0, .plain⟩
def F.CAS_RST_GO : Field := ⟨R.CAS_RST, 31, 31, .w1s, .i, none⟩
def F.CAS_RST_ALL : Field := ⟨R.CAS_RST, 6, 6, .rw, .i, none⟩
def F.CAS_RST_DEV : Field := ⟨R.CAS_RST, 5, 0, .rw, .i, none⟩
/-- CAS_ERRLOG -/
def R.CAS_ERRLOG : Reg := ⟨58720288, [], 0, .plain⟩
def F.CAS_ERRLOG_GROUP : Field := ⟨R.CAS_ERRLOG, 18, 16, .ro, .o, none⟩
def F.CAS_ERRLOG_FRAME : Field := ⟨R.CAS_ERRLOG, 12, 8, .ro, .o, none⟩
def F.CAS_ERRLOG_ZHOP : Field := ⟨R.CAS_ERRLOG, 5, 0, .ro, .o, none⟩
/-- CAS_ERRTIME -/
def R.CAS_ERRTIME : Reg := ⟨58720292, [], 0, .plain⟩
def F.CAS_ERRTIME_NS : Field := ⟨R.CAS_ERRTIME, 31, 0, .ro, .o, none⟩
/-- CAS_CNT_LINE_ERR -/
def R.CAS_CNT_LINE_ERR : Reg := ⟨58720384, [], 0, .plain⟩
def F.CAS_CNT_LINE_ERR_V : Field := ⟨R.CAS_CNT_LINE_ERR, 31, 0, .ro, .o, none⟩
/-- CAS_CNT_TAG_ERR -/
def R.CAS_CNT_TAG_ERR : Reg := ⟨58720388, [], 0, .plain⟩
def F.CAS_CNT_TAG_ERR_V : Field := ⟨R.CAS_CNT_TAG_ERR, 31, 0, .ro, .o, none⟩
/-- CAS_CNT_ZEROED_RX -/
def R.CAS_CNT_ZEROED_RX : Reg := ⟨58720392, [], 0, .plain⟩
def F.CAS_CNT_ZEROED_RX_V : Field := ⟨R.CAS_CNT_ZEROED_RX, 31, 0, .ro, .o, none⟩
/-- CAS_CNT_LATE -/
def R.CAS_CNT_LATE : Reg := ⟨58720396, [], 0, .plain⟩
def F.CAS_CNT_LATE_V : Field := ⟨R.CAS_CNT_LATE, 31, 0, .ro, .o, none⟩
/-- CAS_CNT_BLK_LOST -/
def R.CAS_CNT_BLK_LOST : Reg := ⟨58720400, [], 0, .plain⟩
def F.CAS_CNT_BLK_LOST_V : Field := ⟨R.CAS_CNT_BLK_LOST, 31, 0, .ro, .o, none⟩
/-- CAS_CNT_BYPASS -/
def R.CAS_CNT_BYPASS : Reg := ⟨58720404, [], 0, .plain⟩
def F.CAS_CNT_BYPASS_V : Field := ⟨R.CAS_CNT_BYPASS, 31, 0, .ro, .o, none⟩
/-- CAS_CNT_WRAP -/
def R.CAS_CNT_WRAP : Reg := ⟨58720408, [], 0, .plain⟩
def F.CAS_CNT_WRAP_V : Field := ⟨R.CAS_CNT_WRAP, 31, 0, .ro, .o, none⟩
/-- CAS_CNT_TUN_BUSY -/
def R.CAS_CNT_TUN_BUSY : Reg := ⟨58720412, [], 0, .plain⟩
def F.CAS_CNT_TUN_BUSY_V : Field := ⟨R.CAS_CNT_TUN_BUSY, 31, 0, .ro, .o, none⟩
/-- CAS_CNT_TUN_TIMEOUT -/
def R.CAS_CNT_TUN_TIMEOUT : Reg := ⟨58720416, [], 0, .plain⟩
def F.CAS_CNT_TUN_TIMEOUT_V : Field := ⟨R.CAS_CNT_TUN_TIMEOUT, 31, 0, .ro, .o, none⟩
/-- CAS_CNT_TUN_RING -/
def R.CAS_CNT_TUN_RING : Reg := ⟨58720420, [], 0, .plain⟩
def F.CAS_CNT_TUN_RING_V : Field := ⟨R.CAS_CNT_TUN_RING, 31, 0, .ro, .o, none⟩
/-- CAS_CNT_SAT -/
def R.CAS_CNT_SAT : Reg := ⟨58720424, [], 0, .plain⟩
def F.CAS_CNT_SAT_V : Field := ⟨R.CAS_CNT_SAT, 31, 0, .ro, .o, none⟩
/-- CAS_TUNn -/
def R.CAS_TUNn : Reg := ⟨58720512, [(64, 4)], 0, .plain⟩
def F.CAS_TUNn_OUT : Field := ⟨R.CAS_TUNn, 3, 0, .ro, .o, none⟩
/-- CAS_GRPg -/
def R.CAS_GRPg : Reg := ⟨58720768, [(8, 4)], 0, .plain⟩
def F.CAS_GRPg_EN : Field := ⟨R.CAS_GRPg, 31, 31, .img, .i, none⟩
def F.CAS_GRPg_SINK : Field := ⟨R.CAS_GRPg, 21, 16, .img, .i, none⟩
def F.CAS_GRPg_LINES_M16 : Field := ⟨R.CAS_GRPg, 4, 0, .img, .i, none⟩
/-- CAS_MAPg_l -/
def R.CAS_MAPg_l : Reg := ⟨58785792, [(8, 2048), (512, 4)], 0, .plain⟩
def F.CAS_MAPg_l_EN : Field := ⟨R.CAS_MAPg_l, 31, 31, .rw, .i, none⟩
def F.CAS_MAPg_l_BUS : Field := ⟨R.CAS_MAPg_l, 8, 0, .rw, .i, none⟩

/-- The CAS registers. -/
def regTableCas : List RegEntry :=
  [⟨R.CAS_CFG, [], [F.CAS_CFG_EN, F.CAS_CFG_HEAD, F.CAS_CFG_SIZE_M1, F.CAS_CFG_DEV]⟩,
   ⟨R.CAS_STAT, [], [F.CAS_STAT_UP_LINK, F.CAS_STAT_DN_LINK, F.CAS_STAT_OPEN, F.CAS_STAT_BYPASS, F.CAS_STAT_STATE]⟩,
   ⟨R.CAS_EVT, [.evt], [F.CAS_EVT_TUN_BUSY, F.CAS_EVT_LATE, F.CAS_EVT_ZEROED_RX, F.CAS_EVT_TAG_ERR, F.CAS_EVT_LINE_ERR, F.CAS_EVT_SAT, F.CAS_EVT_HEAD_CONFLICT, F.CAS_EVT_CFG_MISMATCH, F.CAS_EVT_POS_MISMATCH, F.CAS_EVT_BYPASS, F.CAS_EVT_ISOLATED, F.CAS_EVT_RESTORE, F.CAS_EVT_WRAP]⟩,
   ⟨R.CAS_EVTEN, [], [F.CAS_EVTEN_TUN_BUSY, F.CAS_EVTEN_LATE, F.CAS_EVTEN_ZEROED_RX, F.CAS_EVTEN_TAG_ERR, F.CAS_EVTEN_LINE_ERR, F.CAS_EVTEN_SAT, F.CAS_EVTEN_HEAD_CONFLICT, F.CAS_EVTEN_CFG_MISMATCH, F.CAS_EVTEN_POS_MISMATCH, F.CAS_EVTEN_BYPASS, F.CAS_EVTEN_ISOLATED, F.CAS_EVTEN_RESTORE, F.CAS_EVTEN_WRAP]⟩,
   ⟨R.CAS_LINKDLY_DN, [], [F.CAS_LINKDLY_DN_DELAY]⟩,
   ⟨R.CAS_LINKDLY_UP, [], [F.CAS_LINKDLY_UP_DELAY]⟩,
   ⟨R.CAS_RST, [], [F.CAS_RST_GO, F.CAS_RST_ALL, F.CAS_RST_DEV]⟩,
   ⟨R.CAS_ERRLOG, [], [F.CAS_ERRLOG_GROUP, F.CAS_ERRLOG_FRAME, F.CAS_ERRLOG_ZHOP]⟩,
   ⟨R.CAS_ERRTIME, [], [F.CAS_ERRTIME_NS]⟩,
   ⟨R.CAS_CNT_LINE_ERR, [], [F.CAS_CNT_LINE_ERR_V]⟩,
   ⟨R.CAS_CNT_TAG_ERR, [], [F.CAS_CNT_TAG_ERR_V]⟩,
   ⟨R.CAS_CNT_ZEROED_RX, [], [F.CAS_CNT_ZEROED_RX_V]⟩,
   ⟨R.CAS_CNT_LATE, [], [F.CAS_CNT_LATE_V]⟩,
   ⟨R.CAS_CNT_BLK_LOST, [], [F.CAS_CNT_BLK_LOST_V]⟩,
   ⟨R.CAS_CNT_BYPASS, [], [F.CAS_CNT_BYPASS_V]⟩,
   ⟨R.CAS_CNT_WRAP, [], [F.CAS_CNT_WRAP_V]⟩,
   ⟨R.CAS_CNT_TUN_BUSY, [], [F.CAS_CNT_TUN_BUSY_V]⟩,
   ⟨R.CAS_CNT_TUN_TIMEOUT, [], [F.CAS_CNT_TUN_TIMEOUT_V]⟩,
   ⟨R.CAS_CNT_TUN_RING, [], [F.CAS_CNT_TUN_RING_V]⟩,
   ⟨R.CAS_CNT_SAT, [], [F.CAS_CNT_SAT_V]⟩,
   ⟨R.CAS_TUNn, [], [F.CAS_TUNn_OUT]⟩,
   ⟨R.CAS_GRPg, [], [F.CAS_GRPg_EN, F.CAS_GRPg_SINK, F.CAS_GRPg_LINES_M16]⟩,
   ⟨R.CAS_MAPg_l, [.safe], [F.CAS_MAPg_l_EN, F.CAS_MAPg_l_BUS]⟩]

/-! ## RED (R341 to R361) -/

/-- RED_CFG -/
def R.RED_CFG : Reg := ⟨58982400, [], 0, .plain⟩
def F.RED_CFG_EN : Field := ⟨R.RED_CFG, 31, 31, .img, .i, none⟩
def F.RED_CFG_VIP_EN : Field := ⟨R.RED_CFG, 30, 30, .img, .i, none⟩
def F.RED_CFG_PARTNER : Field := ⟨R.RED_CFG, 5, 0, .img, .i, none⟩
/-- RED_CTRL -/
def R.RED_CTRL : Reg := ⟨58982404, [], 0, .plain⟩
def F.RED_CTRL_RESYNC : Field := ⟨R.RED_CTRL, 1, 1, .w1s, .i, none⟩
def F.RED_CTRL_YIELD : Field := ⟨R.RED_CTRL, 0, 0, .w1s, .i, none⟩
/-- RED_STAT -/
def R.RED_STAT : Reg := ⟨58982408, [], 0, .plain⟩
def F.RED_STAT_STATE : Field := ⟨R.RED_STAT, 31, 29, .ro, .o, none⟩
def F.RED_STAT_CLAIM_OUT : Field := ⟨R.RED_STAT, 28, 28, .ro, .o, none⟩
def F.RED_STAT_CLAIM_IN : Field := ⟨R.RED_STAT, 27, 27, .ro, .o, none⟩
def F.RED_STAT_FAULT_OUT : Field := ⟨R.RED_STAT, 26, 26, .ro, .o, none⟩
def F.RED_STAT_FAULT_IN : Field := ⟨R.RED_STAT, 25, 25, .ro, .o, none⟩
def F.RED_STAT_STALE : Field := ⟨R.RED_STAT, 24, 24, .ro, .o, none⟩
def F.RED_STAT_LOCKED : Field := ⟨R.RED_STAT, 6, 0, .ro, .o, none⟩
/-- RED_EVT -/
def R.RED_EVT : Reg := ⟨58982412, [], 0, .plain⟩
def F.RED_EVT_PARTNER_FAULT : Field := ⟨R.RED_EVT, 8, 8, .w1c, .o, none⟩
def F.RED_EVT_TXN_LOST : Field := ⟨R.RED_EVT, 7, 7, .w1c, .o, none⟩
def F.RED_EVT_MIRROR_LAG : Field := ⟨R.RED_EVT, 6, 6, .w1c, .o, none⟩
def F.RED_EVT_CONTENTION : Field := ⟨R.RED_EVT, 5, 5, .w1c, .o, none⟩
def F.RED_EVT_DAM_MISMATCH : Field := ⟨R.RED_EVT, 4, 4, .w1c, .o, none⟩
def F.RED_EVT_SYNCED : Field := ⟨R.RED_EVT, 3, 3, .w1c, .o, none⟩
def F.RED_EVT_PARTNER_LOST : Field := ⟨R.RED_EVT, 2, 2, .w1c, .o, none⟩
def F.RED_EVT_YIELDED : Field := ⟨R.RED_EVT, 1, 1, .w1c, .o, none⟩
def F.RED_EVT_CLAIMED : Field := ⟨R.RED_EVT, 0, 0, .w1c, .o, none⟩
/-- RED_EVTEN -/
def R.RED_EVTEN : Reg := ⟨58982416, [], 0, .plain⟩
def F.RED_EVTEN_PARTNER_FAULT : Field := ⟨R.RED_EVTEN, 8, 8, .rw, .i, none⟩
def F.RED_EVTEN_TXN_LOST : Field := ⟨R.RED_EVTEN, 7, 7, .rw, .i, none⟩
def F.RED_EVTEN_MIRROR_LAG : Field := ⟨R.RED_EVTEN, 6, 6, .rw, .i, none⟩
def F.RED_EVTEN_CONTENTION : Field := ⟨R.RED_EVTEN, 5, 5, .rw, .i, none⟩
def F.RED_EVTEN_DAM_MISMATCH : Field := ⟨R.RED_EVTEN, 4, 4, .rw, .i, none⟩
def F.RED_EVTEN_SYNCED : Field := ⟨R.RED_EVTEN, 3, 3, .rw, .i, none⟩
def F.RED_EVTEN_PARTNER_LOST : Field := ⟨R.RED_EVTEN, 2, 2, .rw, .i, none⟩
def F.RED_EVTEN_YIELDED : Field := ⟨R.RED_EVTEN, 1, 1, .rw, .i, none⟩
def F.RED_EVTEN_CLAIMED : Field := ⟨R.RED_EVTEN, 0, 0, .rw, .i, none⟩
/-- RED_CAUSE -/
def R.RED_CAUSE : Reg := ⟨58982420, [], 0, .plain⟩
def F.RED_CAUSE_CAUSE : Field := ⟨R.RED_CAUSE, 7, 0, .ro, .o, none⟩
/-- RED_LASTCAUSE -/
def R.RED_LASTCAUSE : Reg := ⟨58982424, [], 0, .plain⟩
def F.RED_LASTCAUSE_CAUSE : Field := ⟨R.RED_LASTCAUSE, 7, 0, .ro, .o, none⟩
/-- RED_VIP -/
def R.RED_VIP : Reg := ⟨58982428, [], 0, .plain⟩
def F.RED_VIP_ADDR : Field := ⟨R.RED_VIP, 31, 0, .rw, .i, none⟩
/-- RED_SWBLOCK_LO -/
def R.RED_SWBLOCK_LO : Reg := ⟨58982432, [], 0, .plain⟩
def F.RED_SWBLOCK_LO_V : Field := ⟨R.RED_SWBLOCK_LO, 31, 0, .ro, .o, none⟩
/-- RED_SWBLOCK_HI -/
def R.RED_SWBLOCK_HI : Reg := ⟨58982436, [], 0, .plain⟩
def F.RED_SWBLOCK_HI_V : Field := ⟨R.RED_SWBLOCK_HI, 31, 0, .ro, .o, none⟩
/-- RED_CNT_SWITCH -/
def R.RED_CNT_SWITCH : Reg := ⟨58982528, [], 0, .plain⟩
def F.RED_CNT_SWITCH_V : Field := ⟨R.RED_CNT_SWITCH, 31, 0, .ro, .o, none⟩
/-- RED_CNT_CONTENTION -/
def R.RED_CNT_CONTENTION : Reg := ⟨58982532, [], 0, .plain⟩
def F.RED_CNT_CONTENTION_V : Field := ⟨R.RED_CNT_CONTENTION, 31, 0, .ro, .o, none⟩
/-- RED_CNT_DAM_MISMATCH -/
def R.RED_CNT_DAM_MISMATCH : Reg := ⟨58982536, [], 0, .plain⟩
def F.RED_CNT_DAM_MISMATCH_V : Field := ⟨R.RED_CNT_DAM_MISMATCH, 31, 0, .ro, .o, none⟩
/-- RED_CNT_MIRROR_LAG -/
def R.RED_CNT_MIRROR_LAG : Reg := ⟨58982540, [], 0, .plain⟩
def F.RED_CNT_MIRROR_LAG_V : Field := ⟨R.RED_CNT_MIRROR_LAG, 31, 0, .ro, .o, none⟩
/-- RED_CNT_TXN_LOST -/
def R.RED_CNT_TXN_LOST : Reg := ⟨58982544, [], 0, .plain⟩
def F.RED_CNT_TXN_LOST_V : Field := ⟨R.RED_CNT_TXN_LOST, 31, 0, .ro, .o, none⟩
/-- RED_CNT_YIELD_REFUSED -/
def R.RED_CNT_YIELD_REFUSED : Reg := ⟨58982548, [], 0, .plain⟩
def F.RED_CNT_YIELD_REFUSED_V : Field := ⟨R.RED_CNT_YIELD_REFUSED, 31, 0, .ro, .o, none⟩
/-- RED_DAMp -/
def R.RED_DAMp : Reg := ⟨58982656, [(64, 4)], 0, .plain⟩
def F.RED_DAMp_EN : Field := ⟨R.RED_DAMp, 31, 31, .rw, .i, none⟩
def F.RED_DAMp_OUT : Field := ⟨R.RED_DAMp, 8, 0, .rw, .i, none⟩
/-- RED_DAMLOCK_LO -/
def R.RED_DAMLOCK_LO : Reg := ⟨58982912, [], 0, .plain⟩
def F.RED_DAMLOCK_LO_V : Field := ⟨R.RED_DAMLOCK_LO, 31, 0, .ro, .o, none⟩
/-- RED_DAMLOCK_HI -/
def R.RED_DAMLOCK_HI : Reg := ⟨58982916, [], 0, .plain⟩
def F.RED_DAMLOCK_HI_V : Field := ⟨R.RED_DAMLOCK_HI, 31, 0, .ro, .o, none⟩

/-- The RED registers. -/
def regTableRed : List RegEntry :=
  [⟨R.RED_CFG, [], [F.RED_CFG_EN, F.RED_CFG_VIP_EN, F.RED_CFG_PARTNER]⟩,
   ⟨R.RED_CTRL, [], [F.RED_CTRL_RESYNC, F.RED_CTRL_YIELD]⟩,
   ⟨R.RED_STAT, [], [F.RED_STAT_STATE, F.RED_STAT_CLAIM_OUT, F.RED_STAT_CLAIM_IN, F.RED_STAT_FAULT_OUT, F.RED_STAT_FAULT_IN, F.RED_STAT_STALE, F.RED_STAT_LOCKED]⟩,
   ⟨R.RED_EVT, [.evt], [F.RED_EVT_PARTNER_FAULT, F.RED_EVT_TXN_LOST, F.RED_EVT_MIRROR_LAG, F.RED_EVT_CONTENTION, F.RED_EVT_DAM_MISMATCH, F.RED_EVT_SYNCED, F.RED_EVT_PARTNER_LOST, F.RED_EVT_YIELDED, F.RED_EVT_CLAIMED]⟩,
   ⟨R.RED_EVTEN, [], [F.RED_EVTEN_PARTNER_FAULT, F.RED_EVTEN_TXN_LOST, F.RED_EVTEN_MIRROR_LAG, F.RED_EVTEN_CONTENTION, F.RED_EVTEN_DAM_MISMATCH, F.RED_EVTEN_SYNCED, F.RED_EVTEN_PARTNER_LOST, F.RED_EVTEN_YIELDED, F.RED_EVTEN_CLAIMED]⟩,
   ⟨R.RED_CAUSE, [], [F.RED_CAUSE_CAUSE]⟩,
   ⟨R.RED_LASTCAUSE, [], [F.RED_LASTCAUSE_CAUSE]⟩,
   ⟨R.RED_VIP, [], [F.RED_VIP_ADDR]⟩,
   ⟨R.RED_SWBLOCK_LO, [], [F.RED_SWBLOCK_LO_V]⟩,
   ⟨R.RED_SWBLOCK_HI, [], [F.RED_SWBLOCK_HI_V]⟩,
   ⟨R.RED_CNT_SWITCH, [], [F.RED_CNT_SWITCH_V]⟩,
   ⟨R.RED_CNT_CONTENTION, [], [F.RED_CNT_CONTENTION_V]⟩,
   ⟨R.RED_CNT_DAM_MISMATCH, [], [F.RED_CNT_DAM_MISMATCH_V]⟩,
   ⟨R.RED_CNT_MIRROR_LAG, [], [F.RED_CNT_MIRROR_LAG_V]⟩,
   ⟨R.RED_CNT_TXN_LOST, [], [F.RED_CNT_TXN_LOST_V]⟩,
   ⟨R.RED_CNT_YIELD_REFUSED, [], [F.RED_CNT_YIELD_REFUSED_V]⟩,
   ⟨R.RED_DAMp, [.safe], [F.RED_DAMp_EN, F.RED_DAMp_OUT]⟩,
   ⟨R.RED_DAMLOCK_LO, [], [F.RED_DAMLOCK_LO_V]⟩,
   ⟨R.RED_DAMLOCK_HI, [], [F.RED_DAMLOCK_HI_V]⟩]

/-! ## FAB (R383 to R399) -/

/-- FAB_CFG -/
def R.FAB_CFG : Reg := ⟨59244544, [], 0, .plain⟩
def F.FAB_CFG_LEGACY : Field := ⟨R.FAB_CFG, 31, 31, .img, .i, none⟩
def F.FAB_CFG_CA_MODE : Field := ⟨R.FAB_CFG, 0, 0, .rw, .i, none⟩
/-- FAB_STAT -/
def R.FAB_STAT : Reg := ⟨59244548, [], 0, .plain⟩
def F.FAB_STAT_DRAMQ : Field := ⟨R.FAB_STAT, 22, 16, .ro, .o, none⟩
def F.FAB_STAT_OUTST : Field := ⟨R.FAB_STAT, 8, 0, .ro, .o, none⟩
/-- FAB_EVT -/
def R.FAB_EVT : Reg := ⟨59244552, [], 0, .plain⟩
def F.FAB_EVT_DMA_ERR : Field := ⟨R.FAB_EVT, 23, 16, .w1c, .o, none⟩
def F.FAB_EVT_DMA_DONE : Field := ⟨R.FAB_EVT, 15, 8, .w1c, .o, none⟩
def F.FAB_EVT_DENIED : Field := ⟨R.FAB_EVT, 1, 1, .w1c, .o, none⟩
def F.FAB_EVT_BERR : Field := ⟨R.FAB_EVT, 0, 0, .w1c, .o, none⟩
/-- FAB_EVTEN -/
def R.FAB_EVTEN : Reg := ⟨59244556, [], 0, .plain⟩
def F.FAB_EVTEN_DMA_ERR : Field := ⟨R.FAB_EVTEN, 23, 16, .rw, .i, none⟩
def F.FAB_EVTEN_DMA_DONE : Field := ⟨R.FAB_EVTEN, 15, 8, .rw, .i, none⟩
def F.FAB_EVTEN_DENIED : Field := ⟨R.FAB_EVTEN, 1, 1, .rw, .i, none⟩
def F.FAB_EVTEN_BERR : Field := ⟨R.FAB_EVTEN, 0, 0, .rw, .i, none⟩
/-- FAB_BERR_INFO -/
def R.FAB_BERR_INFO : Reg := ⟨59244560, [], 0, .plain⟩
def F.FAB_BERR_INFO_CAUSE : Field := ⟨R.FAB_BERR_INFO, 31, 28, .ro, .o, none⟩
def F.FAB_BERR_INFO_MASTER : Field := ⟨R.FAB_BERR_INFO, 27, 22, .ro, .o, none⟩
def F.FAB_BERR_INFO_WRITE : Field := ⟨R.FAB_BERR_INFO, 21, 21, .ro, .o, none⟩
def F.FAB_BERR_INFO_SLOT : Field := ⟨R.FAB_BERR_INFO, 20, 18, .ro, .o, none⟩
/-- FAB_BERR_ADDR_LO -/
def R.FAB_BERR_ADDR_LO : Reg := ⟨59244564, [], 0, .plain⟩
def F.FAB_BERR_ADDR_LO_V : Field := ⟨R.FAB_BERR_ADDR_LO, 31, 0, .ro, .o, none⟩
/-- FAB_BERR_ADDR_HI -/
def R.FAB_BERR_ADDR_HI : Reg := ⟨59244568, [], 0, .plain⟩
def F.FAB_BERR_ADDR_HI_V : Field := ⟨R.FAB_BERR_ADDR_HI, 3, 0, .ro, .o, none⟩
/-- FAB_BERR_TIME -/
def R.FAB_BERR_TIME : Reg := ⟨59244572, [], 0, .plain⟩
def F.FAB_BERR_TIME_V : Field := ⟨R.FAB_BERR_TIME, 31, 0, .ro, .o, none⟩
/-- FAB_HOSTBASE_LO -/
def R.FAB_HOSTBASE_LO : Reg := ⟨59244576, [], 0, .plain⟩
def F.FAB_HOSTBASE_LO_V : Field := ⟨R.FAB_HOSTBASE_LO, 31, 12, .rw, .i, none⟩
/-- FAB_HOSTBASE_HI -/
def R.FAB_HOSTBASE_HI : Reg := ⟨59244580, [], 0, .plain⟩
def F.FAB_HOSTBASE_HI_V : Field := ⟨R.FAB_HOSTBASE_HI, 31, 0, .rw, .i, none⟩
/-- FAB_APER -/
def R.FAB_APER : Reg := ⟨59244584, [], 0, .plain⟩
def F.FAB_APER_BASE : Field := ⟨R.FAB_APER, 11, 0, .rw, .i, none⟩
/-- FAB_PCIID -/
def R.FAB_PCIID : Reg := ⟨59244588, [], 7995, .plain⟩
def F.FAB_PCIID_DEVICE : Field := ⟨R.FAB_PCIID, 31, 16, .ro, .o, none⟩
def F.FAB_PCIID_VENDOR : Field := ⟨R.FAB_PCIID, 15, 0, .ro, .o, none⟩
/-- FAB_PARKt -/
def R.FAB_PARKt : Reg := ⟨59244592, [(4, 4)], 0, .plain⟩
def F.FAB_PARKt_EN : Field := ⟨R.FAB_PARKt, 31, 31, .rw, .i, none⟩
def F.FAB_PARKt_MASTER : Field := ⟨R.FAB_PARKt, 5, 0, .rw, .i, none⟩
/-- FAB_CNT_BERR -/
def R.FAB_CNT_BERR : Reg := ⟨59244672, [], 0, .plain⟩
def F.FAB_CNT_BERR_V : Field := ⟨R.FAB_CNT_BERR, 31, 0, .ro, .o, none⟩
/-- FAB_CNT_DENIED -/
def R.FAB_CNT_DENIED : Reg := ⟨59244676, [], 0, .plain⟩
def F.FAB_CNT_DENIED_V : Field := ⟨R.FAB_CNT_DENIED, 31, 0, .ro, .o, none⟩
/-- FAB_DMAd_SRC_LO -/
def R.FAB_DMAd_SRC_LO : Reg := ⟨59245568, [(8, 32)], 0, .plain⟩
def F.FAB_DMAd_SRC_LO_V : Field := ⟨R.FAB_DMAd_SRC_LO, 31, 0, .rw, .i, none⟩
/-- FAB_DMAd_SRC_HI -/
def R.FAB_DMAd_SRC_HI : Reg := ⟨59245572, [(8, 32)], 0, .plain⟩
def F.FAB_DMAd_SRC_HI_V : Field := ⟨R.FAB_DMAd_SRC_HI, 3, 0, .rw, .i, none⟩
/-- FAB_DMAd_DST_LO -/
def R.FAB_DMAd_DST_LO : Reg := ⟨59245576, [(8, 32)], 0, .plain⟩
def F.FAB_DMAd_DST_LO_V : Field := ⟨R.FAB_DMAd_DST_LO, 31, 0, .rw, .i, none⟩
/-- FAB_DMAd_DST_HI -/
def R.FAB_DMAd_DST_HI : Reg := ⟨59245580, [(8, 32)], 0, .plain⟩
def F.FAB_DMAd_DST_HI_V : Field := ⟨R.FAB_DMAd_DST_HI, 3, 0, .rw, .i, none⟩
/-- FAB_DMAd_LEN -/
def R.FAB_DMAd_LEN : Reg := ⟨59245584, [(8, 32)], 0, .plain⟩
def F.FAB_DMAd_LEN_LEN : Field := ⟨R.FAB_DMAd_LEN, 24, 0, .rw, .i, some (4, 16777216)⟩
/-- FAB_DMAd_NOTIFY -/
def R.FAB_DMAd_NOTIFY : Reg := ⟨59245588, [(8, 32)], 0, .plain⟩
def F.FAB_DMAd_NOTIFY_V : Field := ⟨R.FAB_DMAd_NOTIFY, 31, 0, .rw, .i, none⟩
/-- FAB_DMAd_CTRL -/
def R.FAB_DMAd_CTRL : Reg := ⟨59245592, [(8, 32)], 0, .plain⟩
def F.FAB_DMAd_CTRL_ABORT : Field := ⟨R.FAB_DMAd_CTRL, 1, 1, .w1s, .i, none⟩
def F.FAB_DMAd_CTRL_GO : Field := ⟨R.FAB_DMAd_CTRL, 0, 0, .w1s, .i, none⟩
/-- FAB_DMAd_STAT -/
def R.FAB_DMAd_STAT : Reg := ⟨59245596, [(8, 32)], 0, .plain⟩
def F.FAB_DMAd_STAT_BUSY : Field := ⟨R.FAB_DMAd_STAT, 31, 31, .ro, .o, none⟩
def F.FAB_DMAd_STAT_ERR : Field := ⟨R.FAB_DMAd_STAT, 3, 0, .ro, .o, none⟩

/-- The FAB registers. -/
def regTableFab : List RegEntry :=
  [⟨R.FAB_CFG, [], [F.FAB_CFG_LEGACY, F.FAB_CFG_CA_MODE]⟩,
   ⟨R.FAB_STAT, [], [F.FAB_STAT_DRAMQ, F.FAB_STAT_OUTST]⟩,
   ⟨R.FAB_EVT, [.evt], [F.FAB_EVT_DMA_ERR, F.FAB_EVT_DMA_DONE, F.FAB_EVT_DENIED, F.FAB_EVT_BERR]⟩,
   ⟨R.FAB_EVTEN, [], [F.FAB_EVTEN_DMA_ERR, F.FAB_EVTEN_DMA_DONE, F.FAB_EVTEN_DENIED, F.FAB_EVTEN_BERR]⟩,
   ⟨R.FAB_BERR_INFO, [], [F.FAB_BERR_INFO_CAUSE, F.FAB_BERR_INFO_MASTER, F.FAB_BERR_INFO_WRITE, F.FAB_BERR_INFO_SLOT]⟩,
   ⟨R.FAB_BERR_ADDR_LO, [], [F.FAB_BERR_ADDR_LO_V]⟩,
   ⟨R.FAB_BERR_ADDR_HI, [], [F.FAB_BERR_ADDR_HI_V]⟩,
   ⟨R.FAB_BERR_TIME, [], [F.FAB_BERR_TIME_V]⟩,
   ⟨R.FAB_HOSTBASE_LO, [], [F.FAB_HOSTBASE_LO_V]⟩,
   ⟨R.FAB_HOSTBASE_HI, [], [F.FAB_HOSTBASE_HI_V]⟩,
   ⟨R.FAB_APER, [], [F.FAB_APER_BASE]⟩,
   ⟨R.FAB_PCIID, [], [F.FAB_PCIID_DEVICE, F.FAB_PCIID_VENDOR]⟩,
   ⟨R.FAB_PARKt, [], [F.FAB_PARKt_EN, F.FAB_PARKt_MASTER]⟩,
   ⟨R.FAB_CNT_BERR, [], [F.FAB_CNT_BERR_V]⟩,
   ⟨R.FAB_CNT_DENIED, [], [F.FAB_CNT_DENIED_V]⟩,
   ⟨R.FAB_DMAd_SRC_LO, [], [F.FAB_DMAd_SRC_LO_V]⟩,
   ⟨R.FAB_DMAd_SRC_HI, [], [F.FAB_DMAd_SRC_HI_V]⟩,
   ⟨R.FAB_DMAd_DST_LO, [], [F.FAB_DMAd_DST_LO_V]⟩,
   ⟨R.FAB_DMAd_DST_HI, [], [F.FAB_DMAd_DST_HI_V]⟩,
   ⟨R.FAB_DMAd_LEN, [], [F.FAB_DMAd_LEN_LEN]⟩,
   ⟨R.FAB_DMAd_NOTIFY, [], [F.FAB_DMAd_NOTIFY_V]⟩,
   ⟨R.FAB_DMAd_CTRL, [], [F.FAB_DMAd_CTRL_ABORT, F.FAB_DMAd_CTRL_GO]⟩,
   ⟨R.FAB_DMAd_STAT, [], [F.FAB_DMAd_STAT_BUSY, F.FAB_DMAd_STAT_ERR]⟩]

/-! ## BOOT (R362 to R382) -/

/-- BOOT_CTRL -/
def R.BOOT_CTRL : Reg := ⟨59506688, [], 0, .plain⟩
def F.BOOT_CTRL_NEXT_SLOT : Field := ⟨R.BOOT_CTRL, 2, 1, .rw, .i, none⟩
def F.BOOT_CTRL_RB_ADVANCE : Field := ⟨R.BOOT_CTRL, 0, 0, .w1s, .i, none⟩
/-- BOOT_STAT -/
def R.BOOT_STAT : Reg := ⟨59506692, [], 0, .plain⟩
def F.BOOT_STAT_RB_OTP : Field := ⟨R.BOOT_STAT, 22, 16, .ro, .o, none⟩
def F.BOOT_STAT_PQUEUED : Field := ⟨R.BOOT_STAT, 3, 2, .ro, .o, none⟩
def F.BOOT_STAT_JSKIP : Field := ⟨R.BOOT_STAT, 1, 1, .ro, .o, none⟩
def F.BOOT_STAT_PSKIP : Field := ⟨R.BOOT_STAT, 0, 0, .ro, .o, none⟩
/-- BOOT_EVT -/
def R.BOOT_EVT : Reg := ⟨59506696, [], 0, .plain⟩
def F.BOOT_EVT_PERSIST_DONE : Field := ⟨R.BOOT_EVT, 2, 2, .w1c, .o, none⟩
def F.BOOT_EVT_FCMD_DONE : Field := ⟨R.BOOT_EVT, 1, 1, .w1c, .o, none⟩
def F.BOOT_EVT_FCMD_ERR : Field := ⟨R.BOOT_EVT, 0, 0, .w1c, .o, none⟩
/-- BOOT_EVTEN -/
def R.BOOT_EVTEN : Reg := ⟨59506700, [], 0, .plain⟩
def F.BOOT_EVTEN_PERSIST_DONE : Field := ⟨R.BOOT_EVTEN, 2, 2, .rw, .i, none⟩
def F.BOOT_EVTEN_FCMD_DONE : Field := ⟨R.BOOT_EVTEN, 1, 1, .rw, .i, none⟩
def F.BOOT_EVTEN_FCMD_ERR : Field := ⟨R.BOOT_EVTEN, 0, 0, .rw, .i, none⟩
/-- BOOT_IMGVER -/
def R.BOOT_IMGVER : Reg := ⟨59506704, [], 0, .plain⟩
def F.BOOT_IMGVER_V : Field := ⟨R.BOOT_IMGVER, 31, 0, .ro, .o, none⟩
/-- BOOT_GEN -/
def R.BOOT_GEN : Reg := ⟨59506708, [], 0, .plain⟩
def F.BOOT_GEN_V : Field := ⟨R.BOOT_GEN, 31, 0, .ro, .o, none⟩
/-- BOOT_DIGESTi -/
def R.BOOT_DIGESTi : Reg := ⟨59506720, [(8, 4)], 0, .plain⟩
def F.BOOT_DIGESTi_V : Field := ⟨R.BOOT_DIGESTi, 31, 0, .ro, .o, none⟩
/-- BOOT_PSTAT -/
def R.BOOT_PSTAT : Reg := ⟨59506752, [], 0, .plain⟩
def F.BOOT_PSTAT_FREE : Field := ⟨R.BOOT_PSTAT, 17, 0, .ro, .o, none⟩
/-- BOOT_PCTRL -/
def R.BOOT_PCTRL : Reg := ⟨59506756, [], 0, .plain⟩
def F.BOOT_PCTRL_CLEAR : Field := ⟨R.BOOT_PCTRL, 0, 0, .w1s, .i, none⟩
/-- BOOT_FCMD -/
def R.BOOT_FCMD : Reg := ⟨59506816, [], 0, .plain⟩
def F.BOOT_FCMD_GO : Field := ⟨R.BOOT_FCMD, 31, 31, .w1s, .i, none⟩
def F.BOOT_FCMD_CMD : Field := ⟨R.BOOT_FCMD, 1, 0, .rw, .i, none⟩
/-- BOOT_FADDR -/
def R.BOOT_FADDR : Reg := ⟨59506820, [], 0, .plain⟩
def F.BOOT_FADDR_ADDR : Field := ⟨R.BOOT_FADDR, 27, 0, .rw, .i, none⟩
/-- BOOT_FSTAT -/
def R.BOOT_FSTAT : Reg := ⟨59506824, [], 0, .plain⟩
def F.BOOT_FSTAT_BUSY : Field := ⟨R.BOOT_FSTAT, 31, 31, .ro, .o, none⟩
def F.BOOT_FSTAT_ERR : Field := ⟨R.BOOT_FSTAT, 3, 0, .ro, .o, none⟩
/-- BOOT_CNT_PGROUPS -/
def R.BOOT_CNT_PGROUPS : Reg := ⟨59506880, [], 0, .plain⟩
def F.BOOT_CNT_PGROUPS_V : Field := ⟨R.BOOT_CNT_PGROUPS, 31, 0, .ro, .o, none⟩
/-- BOOT_CNT_PSKIP -/
def R.BOOT_CNT_PSKIP : Reg := ⟨59506884, [], 0, .plain⟩
def F.BOOT_CNT_PSKIP_V : Field := ⟨R.BOOT_CNT_PSKIP, 31, 0, .ro, .o, none⟩
/-- BOOT_FBUFi -/
def R.BOOT_FBUFi : Reg := ⟨59506944, [(64, 4)], 0, .plain⟩
def F.BOOT_FBUFi_DATA : Field := ⟨R.BOOT_FBUFi, 31, 0, .rw, .i, none⟩

/-- The BOOT registers. -/
def regTableBoot : List RegEntry :=
  [⟨R.BOOT_CTRL, [.guard], [F.BOOT_CTRL_NEXT_SLOT, F.BOOT_CTRL_RB_ADVANCE]⟩,
   ⟨R.BOOT_STAT, [], [F.BOOT_STAT_RB_OTP, F.BOOT_STAT_PQUEUED, F.BOOT_STAT_JSKIP, F.BOOT_STAT_PSKIP]⟩,
   ⟨R.BOOT_EVT, [.evt], [F.BOOT_EVT_PERSIST_DONE, F.BOOT_EVT_FCMD_DONE, F.BOOT_EVT_FCMD_ERR]⟩,
   ⟨R.BOOT_EVTEN, [], [F.BOOT_EVTEN_PERSIST_DONE, F.BOOT_EVTEN_FCMD_DONE, F.BOOT_EVTEN_FCMD_ERR]⟩,
   ⟨R.BOOT_IMGVER, [], [F.BOOT_IMGVER_V]⟩,
   ⟨R.BOOT_GEN, [], [F.BOOT_GEN_V]⟩,
   ⟨R.BOOT_DIGESTi, [], [F.BOOT_DIGESTi_V]⟩,
   ⟨R.BOOT_PSTAT, [], [F.BOOT_PSTAT_FREE]⟩,
   ⟨R.BOOT_PCTRL, [], [F.BOOT_PCTRL_CLEAR]⟩,
   ⟨R.BOOT_FCMD, [.guard], [F.BOOT_FCMD_GO, F.BOOT_FCMD_CMD]⟩,
   ⟨R.BOOT_FADDR, [.guard], [F.BOOT_FADDR_ADDR]⟩,
   ⟨R.BOOT_FSTAT, [], [F.BOOT_FSTAT_BUSY, F.BOOT_FSTAT_ERR]⟩,
   ⟨R.BOOT_CNT_PGROUPS, [], [F.BOOT_CNT_PGROUPS_V]⟩,
   ⟨R.BOOT_CNT_PSKIP, [], [F.BOOT_CNT_PSKIP_V]⟩,
   ⟨R.BOOT_FBUFi, [.guard], [F.BOOT_FBUFi_DATA]⟩]

/-! ## TST (R441 to R447) -/

/-- TST_STAT -/
def R.TST_STAT : Reg := ⟨59768832, [], 0, .plain⟩
def F.TST_STAT_OPEN : Field := ⟨R.TST_STAT, 16, 16, .ro, .i, none⟩
def F.TST_STAT_ACTIVE : Field := ⟨R.TST_STAT, 8, 0, .ro, .i, none⟩
/-- TST_EVT -/
def R.TST_EVT : Reg := ⟨59768840, [], 0, .plain⟩
def F.TST_EVT_CLEARED : Field := ⟨R.TST_EVT, 0, 0, .w1c, .i, none⟩
/-- TST_EVTEN -/
def R.TST_EVTEN : Reg := ⟨59768844, [], 0, .plain⟩
def F.TST_EVTEN_CLEARED : Field := ⟨R.TST_EVTEN, 0, 0, .rw, .i, none⟩
/-- TST_TSDLY -/
def R.TST_TSDLY : Reg := ⟨59768848, [], 0, .plain⟩
def F.TST_TSDLY_DLY_B : Field := ⟨R.TST_TSDLY, 31, 16, .rw, .i, none⟩
def F.TST_TSDLY_DLY_A : Field := ⟨R.TST_TSDLY, 15, 0, .rw, .i, none⟩
/-- TST_FRMA -/
def R.TST_FRMA : Reg := ⟨59768852, [], 2, .plain⟩
def F.TST_FRMA_MODE : Field := ⟨R.TST_FRMA, 31, 30, .rw, .i, none⟩
def F.TST_FRMA_MATCH : Field := ⟨R.TST_FRMA, 29, 28, .rw, .i, none⟩
def F.TST_FRMA_N : Field := ⟨R.TST_FRMA, 15, 0, .rw, .i, some (2, 65535)⟩
/-- TST_FRMB -/
def R.TST_FRMB : Reg := ⟨59768856, [], 2, .plain⟩
def F.TST_FRMB_MODE : Field := ⟨R.TST_FRMB, 31, 30, .rw, .i, none⟩
def F.TST_FRMB_MATCH : Field := ⟨R.TST_FRMB, 29, 28, .rw, .i, none⟩
def F.TST_FRMB_N : Field := ⟨R.TST_FRMB, 15, 0, .rw, .i, some (2, 65535)⟩
/-- TST_QFULL -/
def R.TST_QFULL : Reg := ⟨59768864, [], 0, .plain⟩
def F.TST_QFULL_EN : Field := ⟨R.TST_QFULL, 31, 31, .rw, .i, none⟩
def F.TST_QFULL_QUEUE : Field := ⟨R.TST_QFULL, 7, 0, .rw, .i, none⟩
/-- TST_FCHOLD -/
def R.TST_FCHOLD : Reg := ⟨59768868, [], 0, .plain⟩
def F.TST_FCHOLD_LEVEL : Field := ⟨R.TST_FCHOLD, 11, 8, .rw, .i, none⟩
def F.TST_FCHOLD_HOLD : Field := ⟨R.TST_FCHOLD, 3, 0, .rw, .i, none⟩
/-- TST_HOP -/
def R.TST_HOP : Reg := ⟨59768872, [], 0, .plain⟩
def F.TST_HOP_CYCLES : Field := ⟨R.TST_HOP, 7, 0, .rw, .i, none⟩
/-- TST_DRAM -/
def R.TST_DRAM : Reg := ⟨59768876, [], 1, .plain⟩
def F.TST_DRAM_STALL : Field := ⟨R.TST_DRAM, 27, 16, .rw, .i, some (0, 4000)⟩
def F.TST_DRAM_N : Field := ⟨R.TST_DRAM, 15, 0, .rw, .i, some (1, 65535)⟩
/-- TST_JIT -/
def R.TST_JIT : Reg := ⟨59768880, [], 0, .plain⟩
def F.TST_JIT_J : Field := ⟨R.TST_JIT, 4, 0, .rw, .i, some (0, 16)⟩
/-- TST_CNT_TSDLY -/
def R.TST_CNT_TSDLY : Reg := ⟨59768960, [], 0, .plain⟩
def F.TST_CNT_TSDLY_V : Field := ⟨R.TST_CNT_TSDLY, 31, 0, .ro, .i, none⟩
/-- TST_CNT_DROP -/
def R.TST_CNT_DROP : Reg := ⟨59768964, [], 0, .plain⟩
def F.TST_CNT_DROP_V : Field := ⟨R.TST_CNT_DROP, 31, 0, .ro, .i, none⟩
/-- TST_CNT_DUP -/
def R.TST_CNT_DUP : Reg := ⟨59768968, [], 0, .plain⟩
def F.TST_CNT_DUP_V : Field := ⟨R.TST_CNT_DUP, 31, 0, .ro, .i, none⟩
/-- TST_CNT_SWAP -/
def R.TST_CNT_SWAP : Reg := ⟨59768972, [], 0, .plain⟩
def F.TST_CNT_SWAP_V : Field := ⟨R.TST_CNT_SWAP, 31, 0, .ro, .i, none⟩
/-- TST_CNT_QFULL -/
def R.TST_CNT_QFULL : Reg := ⟨59768976, [], 0, .plain⟩
def F.TST_CNT_QFULL_V : Field := ⟨R.TST_CNT_QFULL, 31, 0, .ro, .i, none⟩
/-- TST_CNT_HOP -/
def R.TST_CNT_HOP : Reg := ⟨59768980, [], 0, .plain⟩
def F.TST_CNT_HOP_V : Field := ⟨R.TST_CNT_HOP, 31, 0, .ro, .i, none⟩
/-- TST_CNT_DRAM -/
def R.TST_CNT_DRAM : Reg := ⟨59768984, [], 0, .plain⟩
def F.TST_CNT_DRAM_V : Field := ⟨R.TST_CNT_DRAM, 31, 0, .ro, .i, none⟩
/-- TST_CNT_JIT -/
def R.TST_CNT_JIT : Reg := ⟨59768988, [], 0, .plain⟩
def F.TST_CNT_JIT_V : Field := ⟨R.TST_CNT_JIT, 31, 0, .ro, .i, none⟩

/-- The TST registers. -/
def regTableTst : List RegEntry :=
  [⟨R.TST_STAT, [.guard], [F.TST_STAT_OPEN, F.TST_STAT_ACTIVE]⟩,
   ⟨R.TST_EVT, [.evt, .guard], [F.TST_EVT_CLEARED]⟩,
   ⟨R.TST_EVTEN, [.guard], [F.TST_EVTEN_CLEARED]⟩,
   ⟨R.TST_TSDLY, [.guard], [F.TST_TSDLY_DLY_B, F.TST_TSDLY_DLY_A]⟩,
   ⟨R.TST_FRMA, [.guard], [F.TST_FRMA_MODE, F.TST_FRMA_MATCH, F.TST_FRMA_N]⟩,
   ⟨R.TST_FRMB, [.guard], [F.TST_FRMB_MODE, F.TST_FRMB_MATCH, F.TST_FRMB_N]⟩,
   ⟨R.TST_QFULL, [.guard], [F.TST_QFULL_EN, F.TST_QFULL_QUEUE]⟩,
   ⟨R.TST_FCHOLD, [.guard], [F.TST_FCHOLD_LEVEL, F.TST_FCHOLD_HOLD]⟩,
   ⟨R.TST_HOP, [.guard], [F.TST_HOP_CYCLES]⟩,
   ⟨R.TST_DRAM, [.guard], [F.TST_DRAM_STALL, F.TST_DRAM_N]⟩,
   ⟨R.TST_JIT, [.guard], [F.TST_JIT_J]⟩,
   ⟨R.TST_CNT_TSDLY, [.guard], [F.TST_CNT_TSDLY_V]⟩,
   ⟨R.TST_CNT_DROP, [.guard], [F.TST_CNT_DROP_V]⟩,
   ⟨R.TST_CNT_DUP, [.guard], [F.TST_CNT_DUP_V]⟩,
   ⟨R.TST_CNT_SWAP, [.guard], [F.TST_CNT_SWAP_V]⟩,
   ⟨R.TST_CNT_QFULL, [.guard], [F.TST_CNT_QFULL_V]⟩,
   ⟨R.TST_CNT_HOP, [.guard], [F.TST_CNT_HOP_V]⟩,
   ⟨R.TST_CNT_DRAM, [.guard], [F.TST_CNT_DRAM_V]⟩,
   ⟨R.TST_CNT_JIT, [.guard], [F.TST_CNT_JIT_V]⟩]

/-- Every register of the device. -/
def regTable : List RegEntry :=
  regTableSys ++
  regTableClk ++
  regTableSec ++
  regTableTxnUnit ++
  regTableLog ++
  regTableIrq ++
  regTableNp ++
  regTablePtp ++
  regTableStr ++
  regTableRxCtx ++
  regTableTxCtx ++
  regTableOsp ++
  regTableSap ++
  regTableBrm ++
  regTableMdi ++
  regTableSrc ++
  regTableInp ++
  regTableLine ++
  regTableQnc ++
  regTableRgn ++
  regTableGrid ++
  regTableMix ++
  regTableOut ++
  regTableXp ++
  regTableCnv ++
  regTableLdc ++
  regTableCas ++
  regTableRed ++
  regTableFab ++
  regTableBoot ++
  regTableTst

end Sys2Proof.Machine
end

