-- ==== Sys2Proof/Machine/State.lean ====
section
/-!
DEFINITION. The state of the OVX-1051 as plain data: its registers, the memories the manual addresses, and for each
unit what its engines hold between two commands. A table of numbered instances is a list of (number, value) pairs with
rising numbers; an instance that is not listed has the value its `init` constant gives.
-/

namespace Sys2Proof.Machine

/-- A table of numbered instances. -/
abbrev Tab (α : Type) := List (Nat × α)

/-! ## Time (R25, R28 to R30, R55) -/

/-- Local time and the block grid. Local time is kept at the start of the present block, in thirds of a nanosecond, so
that a block of 32 samples is a whole number of units (log entry 5). `up3`: the same count without the steps of acquisition, by
which the device measures its time limits (log entry 152). -/
structure TimeState where
  started : Bool := false
  armed : Bool := false
  block : Nat := 0
  local3 : Nat := 0
  up3 : Nat := 0
  epoch3 : Nat := 0
  timeSet : Bool := false
  acq : Int := 0
  ringHeld : Bool := false
  deriving DecidableEq, Repr

/-! ## The clock steward (R32 to R46, R461) -/

/-- What the qualifier of one reference holds. Frequencies are offsets from nominal in 1/600 ppb. `phase` is the phase of a
reference that carries time (codes 0, 1 and 4), reference minus local in fs, as it stands at the last tick (`none`: no result yet),
`fed`: a period or a result has come since that tick, `quiet`: ticks since the last one. -/
structure RefState where
  seen : Bool := false
  lost : Bool := false
  hold : Bool := false
  srcBad : Bool := false
  fbad : Bool := false
  passed : Bool := false
  runLen : Nat := 0
  runFirst : Int := 0
  clean : Nat := 0
  off : Int := 0
  phase : Option Int := none
  fed : Bool := false
  quiet : Nat := 0
  deriving DecidableEq, Repr

def RefState.init : RefState := {}

/-- The steward: root frequency, phase error in fs, the integral term of the normal loop in 1/1,000,000 of the frequency's unit
while the loop runs, block ticks spent within LOCKWIN, the frequency of each block spent in LOCKED since the last entry (the
newest first, at most 16 s) and their number, the holdover timer; `pps`: while PPS_OUT is high, the thirds of a ns from the
start of the present block to its fall. -/
structure ClkState where
  freq : Int := 0
  err : Int := 0
  integ : Option Int := none
  inWin : Nat := 0
  hist : List Int := []
  lockTicks : Nat := 0
  hoMs : Option Nat := none
  hoTicks : Nat := 0
  refs : Tab RefState := []
  pps : Option Nat := none
  deriving DecidableEq, Repr

/-! ## The PTP engines (R49 to R65) -/

/-- A foreign master: its port identity, its last Announce data, how many Announce messages qualified it, and the
time and sequence number of the last one. -/
structure Foreign where
  srcId : Nat
  srcPort : Nat
  data : AnnounceData
  count : Nat
  last3 : Nat
  seq : Nat
  deriving DecidableEq, Repr

/-- A two-step Sync that waits for its Follow_Up, and since when. Times in 1/65536 ns. -/
structure PendingSync where
  seq : Nat
  at3 : Nat
  t2 : Int
  corr : Int
  deriving DecidableEq, Repr

/-- A path delay exchange: its request's sequence number, when it was sent and its launch time, the responses seen, and the
parts of the first response. -/
structure PendingDelay where
  seq : Nat
  at3 : Nat
  t1 : Int
  peer : Bool
  responses : Nat := 0
  done : Bool := false
  t2 : Int := 0
  t4 : Int := 0
  corr : Int := 0
  deriving DecidableEq, Repr

/-- The PTP engine of one port. Offsets and delays are in 1/65536 ns. `exchanges`: the newest first; `pdHold`: since when
no Pdelay_Req is sent; `agree`: the least and the largest of the offsets that agree while a step is pending, and since when;
`listen3`: since when the port listens; `sync3`, `ann3`, `req3`: when a Sync, an Announce and a Pdelay_Req were sent last. -/
structure PtpPort where
  parent : Option (Nat × Nat) := none
  gm : Option AnnounceData := none
  foreign : List Foreign := []
  pendSync : Option PendingSync := none
  lastSync : Option (Int × Int × Int) := none
  exchanges : List PendingDelay := []
  mpd : Int := 0
  missRun : Nat := 0
  multiRun : Nat := 0
  pdHold : Option Nat := none
  lastOfs : Option Int := none
  stepPend : Bool := false
  agree : Option (Int × Int × Nat) := none
  listen3 : Nat := 0
  sync3 : Option Nat := none
  ann3 : Option Nat := none
  req3 : Option Nat := none
  seqSync : Nat := 0
  seqAnn : Nat := 0
  seqReq : Nat := 0
  rxq : List PtpMsg := []
  txts : List (Nat × Nat) := []
  deriving DecidableEq, Repr

def PtpPort.init : PtpPort := {}

/-! ## The network ports (R68 to R86, R398) -/

/-- An entry of the ARP cache. The list keeps the most recently used first. -/
structure ArpEntry where
  ip : Nat
  mac : Nat
  learned3 : Nat
  deriving DecidableEq, Repr

/-- A host frame taken from its ring and not yet on the medium: its descriptor's address and the built frame. -/
structure TxFrame where
  desc : Nat
  ident : Nat
  stampWanted : Bool
  bytes : List Byte
  tags : Nat
  deriving DecidableEq, Repr

/-! ## Streams (R87 to R107) -/

/-- The settings of a receive context as its identity uses them. -/
structure RxCfg where
  rtp : Bool
  ports : Nat
  fmt : Nat
  rate : Nat
  ch : Nat
  grp : Option Nat
  ident : Nat
  dst : Nat
  src : Nat
  tagged : Bool
  vid : Nat
  udp : Nat
  base : Nat
  mask : Nat
  pres : Int
  rtpOfs : Nat
  xfade : Nat
  depth : Nat
  deriving DecidableEq, Repr

/-- One identity of a receive context (R96, R107): its state 1 WAIT, 2 RUN or 3 STARVED, its jitter buffer by slot, the
phase of its slot grid, its fades, and what its partner-error rules remember. Times are thirds of a ns from block 0. `jumped`:
an acquisition has stepped local time since the last packet; `hist`: the frames that its filter or converter still reads, each
with its time in 1/3,000,000 ns, the newest first; `past`: the latest samples behind the path, which a group delays, the oldest
first. A shadow is the old placement or group of a stream whose routes fade out (R106); it counts no errors. -/
structure RxId where
  cfg : RxCfg
  fade : Ramp
  dying : Bool := false
  shadow : Bool := false
  st : Nat := 1
  buf : Tab (List Int) := []
  off : Option Int := none
  first : Option Nat := none
  routes : List (Nat × Nat × Ramp) := []
  expected : Option Nat := none
  jumped : Bool := false
  last32 : List Nat := []
  prevEnd : Option Int := none
  lastStored : Nat := 0
  fadeIn : Option Nat := none
  gap : Bool := false
  inRun : Bool := false
  countFrom : Nat := 0
  seamHigh : Option Nat := none
  seam : List Nat := []
  hist : List (Int × List Int) := []
  past : List (List Int) := []
  deriving DecidableEq, Repr

/-- The settings of a transmit context as its identity uses them. -/
structure TxCfg where
  rtp : Bool
  ports : Nat
  fmt : Nat
  rate : Nat
  ch : Nat
  cls : Nat
  dscp : Nat
  frames : Nat
  ident : Nat
  dstA : Nat
  dstB : Nat
  dmac : Nat
  udp : Nat
  ins : Bool
  pcp : Nat
  vid : Nat
  base : Nat
  txOfs : Nat
  rtpOfs : Nat
  seqOfs : Nat
  xfade : Nat
  deriving DecidableEq, Repr

/-- One identity of a transmit context: the number of its next packet, the buses of its channels with their ramps, and
its channels' samples of the latest egress blocks, the newest first. -/
structure TxId where
  cfg : TxCfg
  fade : Ramp
  dying : Bool := false
  next : Nat := 0
  routes : List (Nat × Nat × Ramp) := []
  sent : List (Nat × List (List Int)) := []
  deriving DecidableEq, Repr

/-- A stream packet that the device sends (R101, R102). `due3` is the local time of its time field, `sip` the IPv4 address of the
port that sends it. -/
structure TxPacket where
  ctx : Nat
  rtp : Bool
  ident : Nat
  pt : Nat
  fmt : Nat
  rate : Nat
  ch : Nat
  seq : Nat
  time : Nat
  due3 : Nat
  sip : Nat
  dst : Nat
  dmac : Nat
  udp : Nat
  dscp : Nat
  tag : Option (Nat × Nat)
  frames : List (List Int)
  deriving DecidableEq, Repr

/-- The stream engine: identities of the contexts, the newest first. -/
structure StreamState where
  rx : Tab (List RxId) := []
  tx : Tab (List TxId) := []
  deriving DecidableEq, Repr

/-! ## Objects (R112, R113, R125 to R131, R134, R197 to R202) -/

/-- The scene: objects, the store, open batches by source, target records of the host due at this block, owners
written by the host, and the order of processing. -/
structure SceneState where
  objs : Tab ObjState := []
  store : List Held := []
  batches : Tab Batch := []
  hostDue : List ObjRecord := []
  owners : Tab Nat := []
  order : Nat := 0
  deriving DecidableEq, Repr

/-! ## The session engine (R114 to R139) -/

/-- An outstanding challenge. -/
structure Challenge where
  src : UdpFrom
  dnonce : List Byte
  drawn3 : Nat
  deriving DecidableEq, Repr

/-- The session engine: sessions, challenges (newest first), refused openings and ignored addresses with their times,
the NO_SESSION answers of the last second, the session whose turn comes first, and the records processed in this block. -/
structure OspState where
  ses : Tab OspSession := []
  challenges : List Challenge := []
  fails : List (Nat × Nat) := []
  ignored : Tab Nat := []
  unknown3 : List Nat := []
  turn : Nat := 0
  done : Nat := 0
  deriving DecidableEq, Repr

/-! ## The queue pool and the metadata port (R157 to R173) -/

/-- A queue: its words, the oldest first, each with its tag of valid bytes, and the tag of the metadata port that wrote each (0 for
other writers); the word last read; the assembly word and its bits; whether the first word is the second of its cell; SIDE; a reset
that runs; the local time of the last write; `meets`: an append falls in the fabric cycle of the read just made (R164). -/
structure BrmQueue where
  words : List (Nat × Nat) := []
  writers : List Nat := []
  last : Nat × Nat := (0, 0)
  asm : Nat := 0
  asmBits : Nat := 0
  odd : Bool := false
  side : Bool := false
  resetting : Bool := false
  wrote3 : Nat := 0
  meets : Bool := false
  deriving DecidableEq, Repr

def BrmQueue.init : BrmQueue := {}

/-- The metadata port: an assembly word with its bits for each tag; `dropped`: the objects of a cleared port wait for the next boundary (R173). -/
structure MdiState where
  asm : Tab (Nat × Nat) := []
  dropped : Bool := false
  deriving DecidableEq, Repr

/-! ## The serial audio ports (R140 to R156) and converter channels (R179 to R184) -/

/-- A serial port. Times are 1/3,000,000 ns from the start of block 0. Writer: frames since the start, the place of the next
frame; the latest frame's WS edge and place, and whether it has come since the last block; the P24 word number modulo 3 and the
bits to drop from the next sample. Tracker: the nominal period, its correction in 1/10^15, that correction's integral part,
and while a slip (`false`) or a new class (`true`) fades out, which of the two. Reader: the places of the samples stored and not
yet read, the oldest first; leftover bits and samples; when the next frame is due (on an asynchronous path); and the reading
side of a receive context. Transmitter: when queued frames may go out, in thirds of a ns, and the samples its output filter still
reads, the newest first. -/
structure SerialPort where
  frames : Nat := 0
  next : Int := 0
  edge : Option (Int × Int) := none
  fresh : Bool := false
  phase : Nat := 0
  drop : Nat := 0
  nom : Int := 0
  off : Int := 0
  integ : Int := 0
  slip : Option Bool := none
  stamps : List Int := []
  rebits : Nat := 0
  reCount : Nat := 0
  spare : List Int := []
  due : Option Int := none
  rx : Option RxId := none
  sendFrom3 : Option Int := none
  txHist : List (List Int) := []
  deriving DecidableEq, Repr

def SerialPort.init : SerialPort := {}

/-- A converter channel in use: a port input (or a network input), its source channel, its design rate code, TRACK,
and its position error in 1/8 sample. -/
structure Converter where
  port : Bool
  source : Nat
  design : Nat
  track : Bool
  err : Int := 0
  deriving DecidableEq, Repr

/-! ## The renderer (R206 to R219) -/

/-- A renderer crosspoint that carries a bus: its target of the last block and of this one, in Q4.20; `leaving`: its bus
has left the set and the slot is free from the next block on. -/
structure RendSlot where
  slot : Nat
  bus : Nat
  x0 : Int
  x1 : Int
  leaving : Bool := false
  deriving DecidableEq, Repr

/-- What the renderer holds of an object: its slots, how many loudspeakers carry gain, its width, and its delays with 14
fractional bits: where the reads of the last block ended and where those of this one end (`none`: no delay rendered), a
crossfade (from, to, samples passed), and the latest delay that arrived during it; and whether it rendered in this block. -/
structure ObjRender where
  slots : List RendSlot := []
  nspk : Nat := 0
  width : Nat := 0
  d0 : Nat := 0
  d1 : Option Nat := none
  xf : Option (Nat × Nat × Nat) := none
  held : Option Nat := none
  ran : Bool := false
  deriving DecidableEq, Repr

def ObjRender.init : ObjRender := {}

/-! ## The mix fabric and the output stage (R223 to R241, R243 to R262) -/

/-- A route of a direct crosspoint with its signed gain. -/
structure Route where
  kind : Nat
  src : Nat
  bus : Nat
  gain : Ramp
  deriving DecidableEq, Repr

/-- A direct crosspoint that is enabled, fading or releasing (R230). -/
structure Crosspoint where
  route : Route
  ghost : Option Route := none
  releasing : Bool := false
  deriving DecidableEq, Repr

/-- The staging engine's job: format, destination bank and cell, how many cells or taps, and the source's DRAM offset. -/
structure StageJob where
  taps : Bool
  bank : Nat
  cell : Nat
  count : Nat
  src : Nat
  deriving DecidableEq, Repr

/-- What the audio path holds between ticks, by channel: input channels after their delay, outputs after step 3 with the
16 samples that follow, egress blocks of the present block, and the last frames the cores passed on. -/
structure Pipe where
  inPre : Tab (List Int) := []
  outPre : Tab (List Int × List Int) := []
  egress : Tab (List Int) := []
  deriving DecidableEq, Repr

/-! ## The Luveren cores (R265 to R309) -/

/-- A register whose write a delay of R273 holds back. -/
inductive LateReg where
  | v (n : VReg)
  | p (n : AReg)
  | u (n : AReg)
  | e (n : AReg)
  deriving DecidableEq, Repr

/-- A write under way: it lands after `left` further instructions. -/
structure LateWrite where
  reg : LateReg
  val : Nat
  left : Nat
  deriving DecidableEq, Repr

/-- A register set (R268). `w` holds the accumulators as a multiply-accumulate sees them, `w1` and `w2` as they stood one
and two instructions before; `fw1` is the flag word one instruction before (R273). -/
structure LuvSet where
  v : Vector (BitVec 24) 16
  w : Vector (BitVec 56) 4
  w1 : Vector (BitVec 56) 4
  w2 : Vector (BitVec 56) 4
  p : Vector (BitVec 18) 8
  u : Vector (BitVec 18) 8
  e : Vector (BitVec 18) 8
  fw : BitVec 16
  fw1 : BitVec 16
  late : List LateWrite
  deriving DecidableEq, Repr

def LuvSet.init : LuvSet where
  v := Vector.replicate 16 0
  w := Vector.replicate 4 0
  w1 := Vector.replicate 4 0
  w2 := Vector.replicate 4 0
  p := Vector.replicate 8 0
  u := Vector.replicate 8 0
  e := Vector.replicate 8 0
  fw := 0
  fw1 := 0
  late := []

/-- An entry of the load/store queue: the fabric address, and the value of a store or the destination of a load (in the
shadow set when `shadow`). -/
structure LsqEntry where
  addr : Nat
  store : Option Nat
  dest : VReg
  shadow : Bool
  deriving DecidableEq, Repr

/-- A core beside its registers in the map: both sets, program counter, interrupt return address, runs of a repeat still
due, branch delay slots still due with the target, return stack, load/store queue with a queue-full stall, its memories,
the words of the output frames written in this block and those passed on last, whether the next completed block ramps
in, whether RUN was cleared in FAULT, instructions issued in this block, whether a cause of a stall has arisen in this block
(R275), when the timer was written. -/
structure LuvCore where
  main : LuvSet := LuvSet.init
  shadow : LuvSet := LuvSet.init
  inShadow : Bool := false
  pc : BitVec 14 := 0
  ret : BitVec 14 := 0
  rep : Nat := 0
  slots : Nat := 0
  target : Option (BitVec 14) := none
  stack : List (BitVec 14) := []
  lsq : List LsqEntry := []
  stalled : Bool := false
  prog : Tab Nat := []
  smem : Tab Nat := []
  kmem : Tab Nat := []
  frames : Tab Nat := []
  passed : Tab Nat := []
  ramp : Bool := false
  overran : Bool := false
  rearm : Bool := false
  issued : Nat := 0
  stalls : Bool := false
  timer3 : Nat := 0
  deriving DecidableEq, Repr

def LuvCore.init : LuvCore := {}

/-! ## The ring (R310 to R338) -/

/-- A host access under way: the words of it still to be performed in order (fabric address, size, value of a write), and
the values read so far. `reads`: the master waits for an answer. -/
structure HostJob where
  access : Access
  reads : Bool
  todo : List (Nat × Nat × Option Nat)
  got : List Nat := []
  deriving DecidableEq, Repr

/-- The ring: own bus sums by block (2^-47 units), line words received in this block (train, group, frame, words), how many
line frames each train brought, trains that the deadline closed, whether a frame went missing; links known to be down,
the broken links that become the open link with their earliest times, the newest first; requests outstanding to members, the oldest first;
the latest link delays; the map entries that change in this block (`none`: disabled); the mismatches of R312; and the
offset of the ring reference from local time in 1/65536 ns. -/
structure RingState where
  sums : Tab (Tab (List Int)) := []
  rx : List (Side × Nat × Nat × List Int) := []
  seen : Nat × Nat := (0, 0)
  closed : List Side := []
  lost : Bool := false
  down : List Nat := []
  wrapDue : List (Nat × Nat) := []
  tun : List (Nat × HostJob) := []
  dnDelays : List Nat := []
  upDelays : List Nat := []
  oldMap : Tab (Option Nat) := []
  posBad : Bool := false
  cfgBad : Bool := false
  refOfs : Option Int := none
  deriving DecidableEq, Repr

/-! ## The pair (R341 to R360) -/

/-- The pair: since when ACT_CLAIM_IN is deasserted, whether the configuration copy of a resynchronisation is complete,
what the partner last reported (state, STALE, holdover within specification), the block of the last mirror frame, the last
mirrored egress samples, while a switch-over holds outputs the block of its claim and the outputs live at once, the commit records
(block, writes) that the partner's last frame names (what a standby has been told of, what an active has announced), those this unit
has been told of, those it applied as the active before the standby acknowledged them, and the check codes of the last blocks. -/
structure PairState where
  since3 : Nat := 0
  copied : Bool := false
  partner : Option (Nat × Bool × Bool) := none
  heard : Nat := 0
  egress : Tab Int := []
  hold : Option (Nat × List Nat) := none
  acked : List CommitRecord := []
  known : List CommitRecord := []
  unacked : List CommitRecord := []
  damson : Tab (Tab Nat) := []
  deriving DecidableEq, Repr

/-! ## Sessions, transactions, log (R402 to R426) -/

/-- What a session slot holds beside its registers: the interface it is bound to, the role and UNLOCK asked for, when its
challenge was drawn, the step of R404 that runs (2 or 4; for 4 the key whose MAC matched, if any), and of an open session
its key. -/
structure Session where
  iface : Iface
  role : Nat
  unlock : Bool
  drawn3 : Nat := 0
  step : Nat := 0
  openKey : List Byte := []
  deriving DecidableEq, Repr

/-- The security unit: sessions by slot, times of AUTH refusals by interface, interfaces locked out with the time since when,
the lifecycle bits in force since the last reset; the fuses: lifecycle bits, unlock fuses left, rollback index, maker key,
image key hashes, revoked keys; the provisioning hashes written since the last reset. -/
structure SecState where
  ses : Tab Session := []
  fails : Tab (List Nat) := []
  locked : Tab Nat := []
  lc : Nat := 1
  fuses : Nat := 1
  unlocks : Nat := 16
  rollback : Nat := 0
  maker : List Byte := List.replicate 32 0
  hashes : Tab (List Byte) := []
  revoked : Nat := 0
  provHash : List Nat := []
  deriving DecidableEq, Repr

/-- What a slot's transaction holds beside its registers: who opened it, staged writes in order of address, the result that
doomed it with the address of the write, and the local time of the last access by its session. -/
structure TxnSlot where
  access : Access := { iface := .pcie, slot := 0 }
  staged : Tab Nat := []
  doom : Nat := 0
  doomAddr : Nat := 0
  last3 : Nat := 0
  deriving DecidableEq, Repr

def TxnSlot.init : TxnSlot := {}

/-- A commit that is validated or waits for its block: the slot (`none`: a mirrored or journalled commit), the access
that made it, its writes, its commit block once it passed, and whether it persists and whether it is a one-write
commit. -/
structure Commit where
  slot : Option Nat
  access : Access
  writes : List (Nat × Nat)
  block : Option Nat := none
  persist : Bool := false
  one : Bool := false
  deriving DecidableEq, Repr

/-- A group of the persistence journal: the first 8 bytes of its image digest, and its records or a key entry (role, slot,
key; an empty key empties the slot). -/
structure JournalGroup where
  digest : List Byte
  recs : List (Nat × Nat) := []
  key : Option (Nat × Nat × List Byte) := none
  deriving DecidableEq, Repr

/-- The audit log: its 2,048 entries by place, the number of entries written since POR, the entries of the running flush
still to become durable, whether another flush follows, and the flash audit region, the newest entry first. -/
structure LogState where
  entries : Tab (List Nat) := []
  seq : Nat := 0
  flush : Option Nat := none
  again : Bool := false
  region : List (List Nat) := []
  deriving DecidableEq, Repr

/-! ## Boot, flash, resets, power, test (R363 to R382, R427 to R445) -/

/-- What the boot engine and the flash commands hold: the size of the attached flash, the network block of the newest header
that passed (MAC A, MAC B, IPv4 A, mask A, IPv4 B, mask B, DEV), groups waiting to be appended (the oldest first), the
journal in flash, whether its clearing waits, the running flash command (code, address), and during a boot the place whose read
fails (slot, section; 255: the header and its table). -/
structure BootState where
  flashBytes : Nat := 268435456
  net : Option (List Nat) := none
  waiting : List JournalGroup := []
  journal : List JournalGroup := []
  clear : Bool := false
  cmd : Option (Nat × Nat) := none
  badRead : Option (Nat × Nat) := none
  deriving DecidableEq, Repr

/-- Resets and power: causes asserted and not yet acted on, since when a waiting reset waits, POR held by a supply; the
target of a transition that has not reached it, the block at which a mirrored request applies, `down`: steps 2 and 3 of an
entry to STANDBY or OFF run, `exit`: a STANDBY exit waits for its boundary; the ramp of the present block (0 none, 1
falling, 2 silent, 3 rising), OFF, a wake event taken during the entry to STANDBY, a critical temperature that holds the
device, and whether the last reading was at or above WARN. -/
structure PwrState where
  causes : Nat := 0
  since3 : Nat := 0
  held : Bool := false
  goal : Option Nat := none
  at' : Option Nat := none
  down : Bool := false
  exit : Bool := false
  ramp : Nat := 0
  off : Bool := false
  wake : Bool := false
  crit : Bool := false
  warm : Bool := false
  deriving DecidableEq, Repr

/-- The test unit: matching frames counted by port, and the frame held by port with the time of its hold. -/
structure TestState where
  n : Tab Nat := []
  held : Tab (Frame × Nat) := []
  deriving DecidableEq, Repr

/-- A copy of a DMA engine: the access of the session that wrote GO, source, destination, 4-byte words. -/
structure DmaJob where
  access : Access
  src : Nat
  dst : Nat
  words : Nat
  deriving DecidableEq, Repr

/-- The fabric's host side: running DMA copies, aborted ones whose delivered beats land while the engine drains, masters
whose ports drain, host jobs that wait for a drain, and as they stood after the last command: the unit interrupts, the event bits of
the queue pool, and its bit of IRQ_MSI_EN. -/
structure FabState where
  dma : Tab DmaJob := []
  cut : Tab DmaJob := []
  drains : List Nat := []
  waiting : List (Nat × HostJob) := []
  irq : Nat := 0
  brm : Tab Nat := []
  brmMsi : Bool := false
  deriving DecidableEq, Repr

/-! ## What the device sends -/

/-- What leaves the device, newest first in `State.outbox`. -/
inductive Output where
  /-- PTP messages: times in ns, `corr` the correctionField in 1/65536 ns, `log` the logMessageInterval. -/
  | ptpSync (port seq : Nat) (log : Int)
  | ptpFollowUp (port seq t1 : Nat) (corr log : Int)
  | ptpAnnounce (port seq : Nat) (data : AnnounceData) (log : Int)
  | ptpDelayReq (port seq : Nat) (corr : Int)
  | ptpDelayResp (port seq t4 reqId reqPort : Nat) (corr log : Int)
  | ptpPdelayReq (port seq : Nat) (corr : Int)
  | ptpPdelayResp (port seq t2 reqId reqPort : Nat) (corr : Int)
  | ptpPdelayRespFollowUp (port seq t3 reqId reqPort : Nat) (corr : Int)
  | hostMemWrite (addr : Nat) (bytes : List Byte)
  | frame (port : Nat) (bytes : List Byte)
  /-- ARP: the reply names the address it answers for, the announcement the address announced. -/
  | arpReply (port ip targetMac targetIp : Nat)
  | arpRequest (port ip : Nat)
  | arpAnnouncement (port ip : Nat)
  | icmpEchoReply (port dstIp ident seq : Nat) (data : List Byte)
  /-- A stream packet with its frame from the destination address to the last payload byte. -/
  | streamPacket (port : Nat) (dmac : Nat) (p : TxPacket) (bytes : List Byte)
  /-- Groups with the list of an INCLUDE; `none`: EXCLUDE with no sources. -/
  | igmpReport (port : Nat) (groups : List (Nat × Option (List Nat)))
  | osp (dest : UdpFrom) (bytes : List Byte)
  /-- A frame of a serial port: whether SAP_SD is driven, SAPp_CFG.FMT and BCLK_INV, and the bits of both halves in the order of
  their bit clocks, the MSB on the clock of R141. -/
  | sapFrame (port : Nat) (driven fmt inv : Bool) (left right : List Bool)
  | linesFrame (dir : Side) (f : LinesFrame)
  | timeFrame (dir : Side) (timeNs block : Nat) (correction : Int)
  | enumFrame (dir : Side) (f : EnumFrame)
  | wrapNotice (link : Nat)
  | ringReset (dev : Nat)
  | tunnelRequest (dev : Nat) (a : Access) (addr size : Nat) (write : Option Nat)
  | tunnelAnswer (value cause : Nat)
  | mirror (f : MirrorFrame)
  | answer (a : Access) (values : List Nat) (cause : Nat)
  | msix (vector : Nat)
  /-- PPS_OUT changes its level at a local time in thirds of a ns (R25, R48). -/
  | pps (high : Bool) (at3 : Nat)
  /-- WCLK_OUT rises `edges` times in the block that begins, at equal distances from its start (R48). -/
  | wclk (edges : Nat)
  deriving DecidableEq, Repr

/-- A frame that waits for the medium: its level of R78 (1 class A, 2 class B, 3 the level of responder replies), its priority,
destination address, length with FCS, whether it is tagged, what leaves the device, and since when, in 1/150 ns. -/
structure TxWait where
  level : Nat
  prio : Nat
  dst : Nat
  len : Nat
  tagged : Bool
  out : Output
  ready : Nat
  deriving DecidableEq, Repr

/-- What a network port holds beside its registers: MAC counters; ARP cache; destinations being requested (requests sent, time of
the last); announcements still due after a link-up and the time of the last, and those of the shared address of a pair; joined groups; reports still due (number, time of the
last); a query to answer; the echo replies of the last second; host frames in flight per queue and the queue served last; paused
priorities with the ends of their pauses (8: all); frames in the receive buffer by the order of R76 that they wait for, with their
lengths; frames that wait for the medium, the oldest first; when the medium is free, in 1/150 ns; and the credits of the classes
A and B in 1/150,000 bit with the time they stand for. -/
structure NetPort where
  cnt : Tab Nat := []
  arp : List ArpEntry := []
  arpPend : Tab (Nat × Nat) := []
  gratuitous : Nat := 0
  grat3 : Option Nat := none
  vip : Nat := 0
  vip3 : Option Nat := none
  joined : List Nat := []
  reports : Tab (Nat × Option Nat) := []
  queryPending : Bool := false
  echoes3 : List Nat := []
  fly : Tab (List TxFrame) := []
  turn : Nat := 3
  paused : Tab Nat := []
  rxBuf : List (Nat × Nat) := []
  txq : List TxWait := []
  free : Nat := 0
  credA : Int × Nat := (0, 0)
  credB : Int × Nat := (0, 0)
  deriving DecidableEq, Repr

def NetPort.init : NetPort := {}

/-! ## The stops -/

/-- No command of this device stops with a fault: log entry 4. -/
inductive Fault where
  /-- Raised by nothing. -/
  | never
  deriving DecidableEq, Repr

/-- Why a command has no meaning. -/
inductive Refusal where
  /-- A row of the operation table whose meaning is not written; raised by the dispatch only. Safe: nothing about such
  a command can be proved. -/
  | notModelled (mnemonic : String)
  deriving DecidableEq, Repr

/-! ## The whole machine -/

structure State where
  part : Part
  regs : Tab Word
  time : TimeState
  clk : ClkState
  ptp : Tab PtpPort
  net : Tab NetPort
  str : StreamState
  scene : SceneState
  osp : OspState
  brm : Tab BrmQueue
  mdi : MdiState
  sap : Tab SerialPort
  conv : Tab Converter
  lines : Tab LineState
  inp : Tab InpChan
  rend : Tab ObjRender
  swapAt : Option (Nat × Nat)
  xp : Tab Crosspoint
  out : Tab OutChan
  cells : List Host.Cell
  stage : Option StageJob
  core : Tab LuvCore
  pipe : Pipe
  keys : Tab (List Byte)
  dram : List Host.Cell
  flash : List Host.Cell
  ring : RingState
  pair : PairState
  sec : SecState
  txn : Tab TxnSlot
  commits : List Commit
  log : LogState
  boot : BootState
  pwr : PwrState
  tst : TestState
  fab : FabState
  fresh : Nat
  outbox : List Output
  pending : List Instr
  deriving DecidableEq, Repr

def State.reset : State where
  part := .ovx1051
  regs := []
  time := {}
  clk := {}
  ptp := []
  net := []
  str := {}
  scene := {}
  osp := {}
  brm := []
  mdi := {}
  sap := []
  conv := []
  lines := []
  inp := []
  rend := []
  swapAt := none
  xp := []
  out := []
  cells := []
  stage := none
  core := []
  pipe := {}
  keys := []
  dram := []
  flash := []
  ring := {}
  pair := {}
  sec := {}
  txn := []
  commits := []
  log := {}
  boot := {}
  pwr := {}
  tst := {}
  fab := {}
  fresh := 0
  outbox := []
  pending := []

end Sys2Proof.Machine
end

