-- ==== Sys2Proof/Machine/Ops.lean ====
section
/-!
DEFINITION. The named operations over tables, registers and time that every meaning is written in.
-/

namespace Sys2Proof.Machine

/-! ## Tables -/

/-- The value of instance `k`, `d` where it is not listed. -/
def Tab.get {α : Type} (d : α) : Tab α → Nat → α
  | [], _ => d
  | (a, x) :: t, k => if a = k then x else Tab.get d t k

/-- Lists, replaces or (with `none`) removes instance `k`, keeping the numbers rising. -/
def Tab.put {α : Type} : Tab α → Nat → Option α → Tab α
  | [], _, none => []
  | [], k, some v => [(k, v)]
  | (a, x) :: t, k, none => if k = a then Tab.put t k none else (a, x) :: Tab.put t k none
  | (a, x) :: t, k, some v =>
    if k < a then (k, v) :: (a, x) :: t
    else if k = a then (k, v) :: t
    else (a, x) :: Tab.put t k (some v)

/-- Writes instance `k` of a table whose unlisted instances are `d`: the value `d` is not listed. -/
def Tab.set {α : Type} [DecidableEq α] (d : α) (m : Tab α) (k : Nat) (v : α) : Tab α :=
  Tab.put m k (if v = d then none else some v)

/-- The numbers of a table rise strictly. -/
def Tab.rising {α : Type} : Tab α → Bool
  | [] => true
  | (a, _) :: t => (match t with | [] => true | (b, _) :: _ => decide (a < b)) && Tab.rising t

/-- The canonical form of a table: its numbers rise, and no listed value is the unlisted one. -/
def Tab.wf {α : Type} [DecidableEq α] (d : α) (m : Tab α) : Bool :=
  Tab.rising m && m.all (fun e => !decide (e.2 = d))

/-- Puts an element before the first one that it does not come after. -/
def insertBy {α : Type} (before : α → α → Bool) (x : α) : List α → List α
  | [] => [x]
  | y :: ys => if before x y then x :: y :: ys else y :: insertBy before x ys

/-- A list in the order of `before`; equal elements keep their order. -/
def insertSort {α : Type} (before : α → α → Bool) (l : List α) : List α := l.foldr (insertBy before) []

/-! ## Registers and fields (R392, R395) -/

/-- The address of one copy of a register (a session slot counts as an address above the address space). -/
def Reg.key (r : Reg) (ix : List Nat) : Nat :=
  r.base + ((r.dims.zip ix).map fun p => p.2 * p.1.2).sum

/-- The reset word of one copy of a register. -/
def Reg.resetAt (r : Reg) (ix : List Nat) : Word :=
  BitVec.ofNat 32 (match r.kind with
    | .plain => r.reset
    | .identity => if ix.getLast? == some 0 then 0x400000 else r.reset
    | .fused => Config.calibration (r.key ix))

/-- The width of a field. -/
def Field.width (f : Field) : Nat := f.hi + 1 - f.lo

/-- The field's bits as a mask. -/
def Field.mask (f : Field) : Word := BitVec.ofNat 32 ((2 ^ f.width - 1) * 2 ^ f.lo)

/-- The value of a field of a word. -/
def Field.of (f : Field) (w : Word) : Nat := w.toNat / 2 ^ f.lo % 2 ^ f.width

/-- A word with one field replaced. -/
def Field.into (f : Field) (w : Word) (v : Nat) : Word :=
  BitVec.ofNat 32 (w.toNat - f.of w * 2 ^ f.lo + v % 2 ^ f.width * 2 ^ f.lo)

/-- The stored word of a register. -/
def State.word (s : State) (r : Reg) (ix : List Nat := []) : Word :=
  Tab.get (r.resetAt ix) s.regs (r.key ix)

/-- Stores a word in a register. -/
def State.setWord (s : State) (r : Reg) (v : Word) (ix : List Nat := []) : State :=
  { s with regs := Tab.set (r.resetAt ix) s.regs (r.key ix) v }

/-- A field's value. -/
def State.rd (s : State) (f : Field) (ix : List Nat := []) : Nat := f.of (s.word f.reg ix)

/-- A field's value as a two's complement number. -/
def State.rdS (s : State) (f : Field) (ix : List Nat := []) : Int := toSigned f.width (s.rd f ix)

/-- Sets a field. -/
def State.wr (s : State) (f : Field) (v : Nat) (ix : List Nat := []) : State :=
  s.setWord f.reg (f.into (s.word f.reg ix) v) ix

/-- Sets a signed field. -/
def State.wrS (s : State) (f : Field) (v : Int) (ix : List Nat := []) : State :=
  s.wr f (ofSigned f.width v) ix

/-- A one-bit field is set. -/
def State.on (s : State) (f : Field) (ix : List Nat := []) : Bool := s.rd f ix != 0

/-- Raises an event: its bit of the event register sets (R401). -/
def State.raise (s : State) (f : Field) (ix : List Nat := []) : State := s.wr f 1 ix

/-- Raises an event when a condition holds. -/
def State.raiseIf (s : State) (b : Bool) (f : Field) (ix : List Nat := []) : State :=
  if b then s.raise f ix else s

/-- Counts in a counter that wraps (R66, R84). -/
def State.count (s : State) (f : Field) (ix : List Nat := []) (n : Nat := 1) : State :=
  s.wr f (s.rd f ix + n) ix

/-- Counts in a counter that stays at its largest value. -/
def State.countSat (s : State) (f : Field) (ix : List Nat := []) : State :=
  if s.rd f ix + 1 < 2 ^ f.width then s.wr f (s.rd f ix + 1) ix else s

/-! ## The part and its counts (R17 to R20) -/

/-- SYS_ID and SYS_CAPS of a part (R18). -/
def partId : Part → Nat
  | .ovx1051 => 0x0C511051 | .ovx1041 => 0x0C511041 | .ovx1031 => 0x0C511031

def partCaps : Part → Nat
  | .ovx1051 => 0x9A1F6687 | .ovx1041 => 0x890F0041 | .ovx1031 => 0x9A1F0602

/-- A field of SYS_CAPS. -/
def State.cap (s : State) (f : Field) : Nat := f.of (BitVec.ofNat 32 (partCaps s.part))

def State.objCount (s : State) : Nat := 2 ^ s.cap F.SYS_CAPS_OBJ_LOG2
def State.outCount (s : State) : Nat := 2 ^ s.cap F.SYS_CAPS_OUT_LOG2
def State.coreCount (s : State) : Nat := s.cap F.SYS_CAPS_CORES_M1 + 1
def State.hasCnv (s : State) : Bool := s.cap F.SYS_CAPS_CNV_PRES == 1
def State.hasCas (s : State) : Bool := s.cap F.SYS_CAPS_CAS_PRES == 1
def State.hasRed (s : State) : Bool := s.cap F.SYS_CAPS_RED_PRES == 1
/-- The taps of the pool (CNV_SIZE × 262,144). -/
def State.tapPool (s : State) : Nat := s.cap F.SYS_CAPS_CNV_SIZE * 262144

/-! ## Outputs and free values -/

/-- Puts an output into the outbox. -/
def State.emit (s : State) (o : Output) : State := { s with outbox := o :: s.outbox }

/-- Uses up the free values drawn at the present count. -/
def State.drawn (s : State) : State := { s with fresh := s.fresh + 1 }

/-- A free value drawn now. -/
def State.draw (s : State) (k : FreeKind) (args : List Int := []) : Nat :=
  Config.free k ((s.fresh : Int) :: args)

/-- A free value of a closed range, drawn now. -/
def State.drawIn (s : State) (k : FreeKind) (args : List Int) (lo hi : Int) : Int :=
  Config.freeIn k ((s.fresh : Int) :: args) lo hi

/-! ## The internal rate and time (R13, R25, R28, R29) -/

/-- The internal rate is 48 kHz. -/
def State.rate48 (s : State) : Bool := s.on F.CLK_CTRL_RATE

/-- The internal rate in Hz. -/
def State.rateHz (s : State) : Nat := if s.rate48 then 48000 else 96000

/-- The length of a block in thirds of a ns of local time (R25, R28). -/
def State.block3 (s : State) : Nat := if s.rate48 then 2000000 else 1000000

/-- Blocks in a second of local time. -/
def State.blocksPerSec (s : State) : Nat := if s.rate48 then 1500 else 3000

/-- Local time now, in thirds of a ns: the start of the present block and a free part of the block (log entry 5). -/
def State.now3 (s : State) : Nat :=
  s.time.local3 + (s.drawIn .timeInBlock [] 0 ((s.block3 : Int) - 1)).toNat

/-- The time since the reset, now (log entries 5 and 152). -/
def State.upNow3 (s : State) : Nat :=
  s.time.up3 + (s.drawIn .timeInBlock [] 0 ((s.block3 : Int) - 1)).toNat

/-- The host stamp of an event of this moment (R59): local time in ns modulo 2^32. -/
def State.stamp (s : State) : Nat := s.now3 / 3 % 2 ^ 32

/-- A change that happens under a condition only. -/
def State.only (s : State) (b : Bool) (t : State) : State := if b then t else s

/-- A change at one of the two network ports; there is no other port. -/
def State.whenPort (s : State) (p : Nat) (t : State) : State := s.only (decide (p < 2)) t

/-! ## Where the device stands (R374, R378, R435 to R439) -/

/-- The boot has ended with audio running: SYS_BOOTSTAT.STATE is RUN. -/
def State.running (s : State) : Bool := s.rd F.SYS_BOOTSTAT_STATE == 1

/-- The boot has ended, in RUN or in Safe Mute. -/
def State.booted (s : State) : Bool := s.rd F.SYS_BOOTSTAT_STATE != 0

/-- The power state is RUN or QUIET. -/
def State.awake (s : State) : Bool := s.booted && decide (s.rd F.SYS_STAT_PWR ≤ 1)

/-- The audio engines work: audio runs and its first block has begun, in RUN or QUIET. -/
def State.audio (s : State) : Bool := s.running && s.time.started && decide (s.rd F.SYS_STAT_PWR ≤ 1)

/-- The claim gate is open: the unit is not paired, or its own claim is asserted and the partner's is not (R342). -/
def State.gate (s : State) : Bool :=
  !s.on F.RED_CFG_EN || (s.on F.RED_STAT_CLAIM_OUT && !s.on F.RED_STAT_CLAIM_IN)

/-- A time of a previous event lies at least `sec3` thirds of a ns before the end of the present block. -/
def State.elapsed (s : State) (since3 sec3 : Nat) : Bool := decide (since3 + sec3 ≤ s.time.up3 + s.block3)

end Sys2Proof.Machine
end

