-- ==== Sys2Proof/Machine/Irq.lean ====
section
/-!
DEFINITION. Interrupts (R400, R401): the interrupt of each unit from its event and enable registers, and the MSI-X
messages of a rising unit interrupt.
-/

namespace Sys2Proof.Machine

/-- The event registers with their unit in IRQ_STAT; a register of both ports adds its step for port B. The enables of each
stand in the register after it. -/
def eventRegs : List (Nat × Reg × Nat) :=
  [(0, R.SYS_EVT, 0), (0, R.SYS_HW_EVT, 0), (1, R.CLK_EVT, 0), (2, R.SEC_EVT, 0), (3, R.TXN_EVT, 0), (4, R.LOG_EVT, 0),
   (5, R.NP_EVT, 2), (5, R.NP_HQEVT, 2), (6, R.PTP_EVT, 2), (9, R.STR_EVT, 0), (10, R.OSP_EVT, 0), (11, R.SAPp_EVT, 0),
   (12, R.BRM_EVT, 0), (12, R.BRMq_EVT, 0), (13, R.MDI_EVT, 0), (14, R.SRC_EVT, 0), (15, R.INP_EVT, 0),
   (16, R.QNC_EVT, 0), (17, R.MIX_EVT, 0), (18, R.OUT_EVT, 0), (19, R.CNV_EVT, 0), (20, R.LDCc_EVT, 0),
   (21, R.CAS_EVT, 0), (22, R.RED_EVT, 0), (23, R.FAB_EVT, 0), (24, R.BOOT_EVT, 0), (25, R.TST_EVT, 0)]

/-- Which copy of a register an address is. -/
def Reg.copyAt (r : Reg) (addr : Nat) : Option Nat :=
  match r.dims with
  | [] => if addr = r.base then some 0 else none
  | (n, d) :: _ =>
    if r.base ≤ addr ∧ (addr - r.base) % d = 0 ∧ (addr - r.base) / d < n then some ((addr - r.base) / d) else none

/-- The unit whose interrupt the event register at an address feeds. -/
def irqUnit (addr : Nat) : Option Nat :=
  eventRegs.findSome? fun e => (e.2.1.copyAt addr).map fun i => e.1 + e.2.2 * i

/-- IRQ_STAT: a unit's bit is set while any event bit of the unit is set together with its enable (R400). -/
def State.irqStat (s : State) : Nat :=
  s.regs.foldl (fun acc e =>
    match irqUnit e.1 with
    | some u => if (e.2 &&& Tab.get 0 s.regs (e.1 + 4)) != 0 then acc ||| 2 ^ u else acc
    | none => acc) 0

/-- The unit interrupts that MSI-X signals. -/
def State.irqMsi (s : State) : Nat := s.irqStat &&& (s.word R.IRQ_MSI_EN).toNat

/-- IRQ_OUTn is low (R401). -/
def State.irqLow (s : State) : Bool := s.irqStat &&& (s.word R.IRQ_PIN_EN).toNat != 0

/-- Signals the vectors of a mask. -/
def State.signal (s : State) (mask : Nat) : State :=
  (List.range 26).foldl (fun s u => if mask / 2 ^ u % 2 = 1 then s.emit (.msix u) else s) s

/-- The event bits of the queue pool that are set, by register address. -/
def State.brmEvents (s : State) : Tab Nat :=
  s.regs.filterMap fun e => if irqUnit e.1 = some 12 ∧ e.2 ≠ 0 then some (e.1, e.2.toNat) else none

/-- An enabled event bit of the queue pool has gone from 0 to 1 (R167). -/
def State.brmRises (s : State) : Bool :=
  s.brmEvents.any fun e =>
    let old := Tab.get 0 s.fab.brm e.1
    (e.2 ^^^ (e.2 &&& old)) &&& (Tab.get 0 s.regs (e.1 + 4)).toNat != 0

/-- IRQ_MSI_EN of the queue pool. -/
def State.brmMsi (s : State) : Bool := (s.word R.IRQ_MSI_EN).toNat / 4096 % 2 == 1

/-- The vectors to signal at the end of a command: those of the unit interrupts that rose (R401). The queue pool's is signalled at
every enabled event bit that goes from 0 to 1, and when IRQ_MSI_EN lets an interrupt that stands through, not when BRMq_EVTEN does
(R167, log entry 161). -/
def State.irqRises (s : State) : Nat :=
  let now := s.irqMsi
  let rise := now &&& (now ^^^ s.fab.irq)
  let others := rise ^^^ (rise &&& 4096)
  if s.brmMsi && (s.brmRises || (!s.fab.brmMsi && rise &&& 4096 != 0)) then others ||| 4096 else others

/-- The end of a command: the vectors are signalled, and the free values of the next command are drawn anew. -/
def State.settle (s : State) : State :=
  let t := s.signal s.irqRises
  { t with fab := { t.fab with irq := s.irqMsi, brm := s.brmEvents, brmMsi := s.brmMsi }, fresh := t.fresh + 1 }

/-- IRQ_EOI: a vector whose bit is still set is signalled again (R401). -/
def State.irqEoi (s : State) (v : Nat) : State := s.signal (v &&& s.irqMsi)

end Sys2Proof.Machine
end

