-- ==== Sys2Proof/Machine/Log.lean ====
section
/-!
DEFINITION. Who makes a host access (R383, R403, R441), and the audit log (R424 to R426): its entries, the flush to the
flash audit region.
-/

namespace Sys2Proof.Machine

/-! ## Accesses (R383, R388, R441) -/

def Iface.code : Iface → Nat
  | .pcie => 0 | .spi => 1 | .tunnel => 2

/-- The session that an access uses: open in its slot on its interface. -/
def State.sessionOf (s : State) (a : Access) : Option Session :=
  match s.sec.ses.lookup a.slot with
  | some x => if s.rd F.SEC_OPEN_STAT_STATE [a.slot] == 2 && x.iface == a.iface then some x else none
  | none => none

/-- The role of an access: carried through the tunnel, else of its session, else 0 (R334, R383). -/
def State.roleOf (s : State) (a : Access) : Nat :=
  match a.iface with
  | .tunnel => a.carriedRole
  | _ => match s.sessionOf a with | some x => x.role | none => 0

/-- The session handle of an access, 0 without a session. -/
def State.handleOf (s : State) (a : Access) : Nat :=
  match a.iface with
  | .tunnel => a.carriedHandle
  | _ => if (s.sessionOf a).isSome then s.rd F.SEC_OPEN_HANDLE_V [a.slot] else 0

/-- The fabric master of an access (R388). -/
def Access.master (a : Access) : Nat :=
  match a.iface with
  | .pcie => 0 | .spi => 1 | .tunnel => 2

/-- The code of the lifecycle: the highest state all of whose bits are set; a part without a bit is BLANK (R421). -/
def State.lifecycle (s : State) : Nat :=
  if s.sec.lc % 16 = 15 then 15 else if s.sec.lc % 8 = 7 then 7 else if s.sec.lc % 4 = 3 then 3 else 1

/-- A session of this role, unlocked or not, has test access (R441). -/
def State.testRole (s : State) (role : Nat) (unlock : Bool) : Bool :=
  match s.lifecycle with
  | 3 => 2 ≤ role
  | 7 => role == 3 && unlock
  | _ => 1 ≤ role

/-- An access comes from a session with test access. -/
def State.testAccess (s : State) (a : Access) : Bool :=
  match a.iface with
  | .tunnel => s.testRole a.carriedRole false
  | _ => match s.sessionOf a with | some x => s.testRole x.role x.unlock | none => false

/-! ## The audit log (R424 to R426) -/

/-- Puts an entry into the log; an entry not yet flushed that is overwritten is lost (R425, R426). -/
def State.logPut (s : State) (kind role slot iface handle addr old new result : Nat) : State :=
  let at' := s.rd F.LOG_STAT_HEAD
  let ns := s.now3 / 3
  let w2 := result % 256 * 2 ^ 24 + kind % 16 * 2 ^ 20 + role % 4 * 2 ^ 18 + slot % 8 * 2 ^ 15 + iface % 4 * 2 ^ 13
  let e := [ns / 10 ^ 9 % 2 ^ 32, ns % 10 ^ 9, w2, handle, addr, old, new, s.log.seq % 2 ^ 32]
  let full := s.rd F.LOG_STAT_UNFLUSHED == 2048
  let s := if full then (s.count F.LOG_CNT_LOST_V).raise F.LOG_EVT_OVERWRITE
    else s.wr F.LOG_STAT_UNFLUSHED (s.rd F.LOG_STAT_UNFLUSHED + 1)
  let s := s.wr F.LOG_STAT_HEAD ((at' + 1) % 2048)
  let flush := if full then s.log.flush.map (· - 1) else s.log.flush
  { s with log := { s.log with entries := Tab.put s.log.entries at' (some e), seq := s.log.seq + 1, flush := flush } }

/-- An entry for a host access. -/
def State.logAccess (s : State) (a : Access) (kind addr old new result : Nat) : State :=
  s.logPut kind (s.roleOf a) a.slot (Iface.code a.iface) (s.handleOf a) addr old new result

/-- An entry of the device itself. -/
def State.logDevice (s : State) (kind addr old new result : Nat) : State := s.logPut kind 0 0 3 0 addr old new result

/-- A flush starts over the entries that are unflushed now, or follows the one that runs (R426). -/
def State.logFlush (s : State) : State :=
  match s.log.flush with
  | some _ => { s with log := { s.log with again := true } }
  | none =>
    ({ s with log := { s.log with flush := some (s.rd F.LOG_STAT_UNFLUSHED) } } : State).wr F.LOG_STAT_FLUSHING 1

/-- UNFLUSHED has reached LOG_CFG.AUTO. -/
def State.autoFlush (s : State) : Bool :=
  s.rd F.LOG_CFG_AUTO != 0 && decide (s.rd F.LOG_CFG_AUTO ≤ s.rd F.LOG_STAT_UNFLUSHED)

/-- A flush ends: entries that became durable are appended to the flash audit region, which keeps 16,384; after a flash
failure the others stay unflushed (R426). -/
def State.logFlushDone (s : State) (durable : Nat) (flashError : Bool) : State :=
  match s.log.flush with
  | none => s
  | some n =>
    let d := if flashError then min durable n else n
    let un := s.rd F.LOG_STAT_UNFLUSHED
    let first := s.rd F.LOG_STAT_HEAD + 2048 - un
    let out := (List.range d).map fun i => Tab.get [] s.log.entries ((first + i) % 2048)
    let s := (s.wr F.LOG_STAT_UNFLUSHED (un - d)).count F.LOG_CNT_FLUSHED_V [] d
    let s := (s.wr F.LOG_STAT_FLUSHING 0).raise F.LOG_EVT_FLUSH_DONE
    let s := s.raiseIf flashError F.LOG_EVT_FLASH_ERR
    let again := s.log.again
    let s := { s with log := { s.log with flush := none, again := false,
                                          region := (out.reverse ++ s.log.region).take 16384 } }
    if again then s.logFlush else s

end Sys2Proof.Machine
end

