-- ==== Sys2Proof/Machine/Trig.lean ====
section
/-!
DEFINITION. Directions and lengths in integer arithmetic: the sine, the arc tangent and the square root that the
renderer's tables approximate (R199, R218). Angles are 2^32 to a turn, so a binary angle unit is 65,536; sines are
scaled by 2^30. These functions are exact to far below the bounds of R218; the renderer adds a free error within the
bound (log entry 11).
-/

namespace Sys2Proof.Machine

/-- The Taylor series of the sine: `t` is the present term, `x2` the square of the argument, all scaled by 2^40. -/
def sinTerms : Nat → Nat → Int → Int → Int
  | 0, _, t, _ => t
  | n + 1, k, t, x2 => t + sinTerms n (k + 2) (-(t * x2 / 2 ^ 40 / ((k + 1) * (k + 2) : Nat))) x2

/-- The sine of a first-quadrant angle `r` of at most 2^30, scaled by 2^30. -/
def sinQuarter (r : Nat) : Int :=
  let x : Int := (r * 1727108826179 / 2 ^ 30 : Nat)
  sinTerms 9 1 x (x * x / 2 ^ 40) / 1024

/-- The sine of an angle, scaled by 2^30. -/
def sinTurn (a : Int) : Int :=
  let n := (a % 2 ^ 32).toNat
  let r := n % 2 ^ 30
  match n / 2 ^ 30 with
  | 0 => sinQuarter r
  | 1 => sinQuarter (2 ^ 30 - r)
  | 2 => -sinQuarter r
  | _ => -sinQuarter (2 ^ 30 - r)

/-- The cosine of an angle, scaled by 2^30. -/
def cosTurn (a : Int) : Int := sinTurn (a + 2 ^ 30)

/-- The angles whose tangents are 2^0, 2^−1, 2^−2, … -/
def atanTable : List Int :=
  [536870912, 316933406, 167458907, 85004756, 42667331, 21354465, 10679838, 5340245,
   2670163, 1335087, 667544, 333772, 166886, 83443, 41722, 20861,
   10430, 5215, 2608, 1304, 652, 326, 163, 81, 41, 20, 10, 5, 3, 1, 1, 0]

/-- Rotates the vector onto the x axis, adding up the angle. -/
def atanSteps : List Int → Nat → Int → Int → Int → Int
  | [], _, _, _, acc => acc
  | t :: ts, i, x, y, acc =>
    if 0 ≤ y then atanSteps ts (i + 1) (x + y / 2 ^ i) (y - x / 2 ^ i) (acc + t)
    else atanSteps ts (i + 1) (x - y / 2 ^ i) (y + x / 2 ^ i) (acc - t)

/-- atan2 in 2^32 to a turn, in (−2^31, 2^31]; 0 when both are 0 (R199). -/
def atan2Turn (y x : Int) : Int :=
  if x = 0 ∧ y = 0 then 0
  else
    let y' := y * 2 ^ 24
    let x' := x * 2 ^ 24
    if 0 ≤ x then atanSteps atanTable 0 x' y' 0
    else
      let a := atanSteps atanTable 0 (-x') (-y') 0
      if 0 ≤ y then a + 2 ^ 31 else a - 2 ^ 31

/-- The integer square root by bisection on the bits below `b`. -/
def isqrtBits : Nat → Nat → Nat → Nat
  | 0, _, r => r
  | b + 1, x, r => let r' := r + 2 ^ b; isqrtBits b x (if r' * r' ≤ x then r' else r)

/-- The integer square root. -/
def isqrt (x : Nat) : Nat := isqrtBits (x.log2 / 2 + 1) x 0

end Sys2Proof.Machine
end

