-- ==== Sys2Proof/Machine/Clock.lean ====
section
/-!
DEFINITION. The clock steward: qualification of references (R32, R33, R41 to R43, R461), selection (R35, R36, R44),
the phase pull and the states of R39, and holdover (R45, R46). Frequencies are offsets from nominal in 1/600 ppb, so
that 0.1 ppm is 60,000 and the slew limit of R33 is a whole number per block; phases are in fs.
-/

namespace Sys2Proof.Machine

/-! ## References -/

/-- What the qualifier of reference `n` holds. -/
def State.ref (s : State) (n : Nat) : RefState := Tab.get RefState.init s.clk.refs n

/-- Sets what the qualifier of reference `n` holds. -/
def State.setRef (s : State) (n : Nat) (r : RefState) : State :=
  { s with clk := { s.clk with refs := Tab.set RefState.init s.clk.refs n r } }

/-- The nominal rate in Hz that CLK_REFn_CFG.NOM names; other codes name none. -/
def nominalHz : Nat → Option Nat
  | 0 => some 48000
  | 1 => some 96000
  | 2 => some 192000
  | _ => none

/-- The nominal rate of reference `n`. -/
def State.refNom (s : State) (n : Nat) : Option Nat := nominalHz (s.rd F.CLK_REFn_CFG_NOM [n])

/-- The ring reference is ignored on a ring head (R34); the other references count when enabled. -/
def State.refOn (s : State) (n : Nat) : Bool :=
  s.on F.CLK_REFn_CFG_EN [n] && !(n == 4 && s.on F.CAS_CFG_EN && s.on F.CAS_CFG_HEAD)

/-- One of the edge references, word clock and serial word select, with a legal nominal. -/
def State.edgeRef (s : State) (n : Nat) : Bool :=
  (n == 2 || n == 3) && s.refOn n && (s.refNom n).isSome

/-- QUAL of a reference: 0 OFF, 1 DISQUALIFIED, 2 WAIT, 3 QUALIFIED, 4 MISMATCH. -/
def State.qual (s : State) (n : Nat) : Nat := s.rd F.CLK_REFn_STAT_QUAL [n]

/-- A failed check disqualifies: QUAL and REASON, and the wait begins anew (R41, R42). -/
def State.disqualify (s : State) (n reason : Nat) : State :=
  ((s.wr F.CLK_REFn_STAT_QUAL 1 [n]).wr F.CLK_REFn_STAT_REASON reason [n]).setRef n
    { s.ref n with clean := 0, passed := false }

/-- The window in which the activity or period check failed gives no measurement, and it breaks a run (R461). -/
def State.breakWindow (s : State) (n : Nat) : State :=
  s.setRef n { s.ref n with hold := true, runLen := 0 }

/-- REF_LOST: the activity check fails. A reference that has been active raises the event and counts a loss (R41). -/
def State.refLost (s : State) (n : Nat) : State :=
  if n < 5 && s.refOn n && s.qual n != 0 && !(s.ref n).lost then
    let t := (s.disqualify n 1).breakWindow n
    let t := t.setRef n { t.ref n with lost := true }
    if (s.ref n).seen then (t.raise F.CLK_EVT_REF_LOST).countSat F.CLK_REFn_CNT_LOSS [n] else t
  else s

/-- A period outside the window of R32 disqualifies at once and counts (R42). The manual does not say what such a period does to
a reference that is disqualified already: here it raises the event and counts again, and a MISMATCH reference becomes
DISQUALIFIED, as it does on a loss (DESIGN CHOICE, log entry 142). -/
def State.refGlitch (s : State) (n : Nat) : State :=
  if s.edgeRef n && s.qual n != 0 then
    (((s.disqualify n 2).breakWindow n).raise F.CLK_EVT_REF_GLITCH).countSat F.CLK_REFn_CNT_GLITCH [n]
  else s

/-- A source gives a good period or a valid result: it is active, and after a failure the next window and a new
unbroken stretch start here (R32, R461). -/
def State.refAlive (s : State) (n : Nat) : State :=
  if s.refOn n && s.qual n != 0 then
    let r := s.ref n
    if r.srcBad then s.setRef n { r with seen := true, lost := false, fed := true }
    else
      let t := s.setRef n { r with seen := true, lost := false, hold := false, fed := true }
      if r.hold && !r.fbad && s.qual n == 1 then t.wr F.CLK_REFn_STAT_QUAL 2 [n] else t
  else s

/-- A reference that carries time gives a result: reference minus local in fs (R37). -/
def State.refPhase (s : State) (n : Nat) (phase : Int) : State :=
  (s.setRef n { s.ref n with phase := some phase }).refAlive n

/-- A period of `ps` lies within ±12.5 % of the nominal period (R32). -/
def periodGood (hz ps : Nat) : Bool :=
  let x := ps * hz * 8
  decide (7 * 10 ^ 12 ≤ x) && decide (x ≤ 9 * 10 ^ 12)

/-- REF_RISING_EDGE: the period just ended is judged. Reference 3 is the word select of the serial port that CLK_REF3_CFG.SAP_PORT
names; an edge of another port's is none of the reference's. -/
def State.refEdge (s : State) (n port ps : Nat) : State :=
  if s.edgeRef n && (n != 3 || port == s.rd F.CLK_REFn_CFG_SAP_PORT [3]) then
    match s.refNom n with
    | some hz => if periodGood hz ps then s.refAlive n else s.refGlitch n
    | none => s
  else s

/-- The measured frequency offset in 1/600 ppb, from the figure CLK_REFn_RATE takes: mHz for the edge references,
0.01 ppb for the others. -/
def State.offsetOf (s : State) (n : Nat) (rate : Int) : Int :=
  if n == 2 || n == 3 then
    match s.refNom n with
    | some hz => (rate - (hz : Int) * 1000) * (600000000 / (hz : Int))
    | none => 0
  else 6 * rate

/-- A measured window outside the range: RANGE, and the runs of R43. -/
def State.windowOut (s : State) (n : Nat) (off : Int) : State :=
  let r := s.ref n
  let agree : Int := (s.rd F.CLK_QUAL_AGREE : Int) * 60000
  let goesOn := r.runLen != 0 && decide ((off - r.runFirst).natAbs ≤ agree.toNat)
  let len := if goesOn then r.runLen + 1 else 1
  let w := max 1 ((s.rd F.CLK_QUAL_WTR + 9) / 10)
  let mism := s.qual n == 4
  let t := s.raise F.CLK_EVT_RANGE
  let t := if mism then t.setRef n { t.ref n with clean := 0, passed := false } else t.disqualify n 3
  let t := t.setRef n { t.ref n with fbad := true, runLen := len, runFirst := if goesOn then r.runFirst else off }
  if !mism && decide (w ≤ len) then
    ((t.wr F.CLK_REFn_STAT_QUAL 4 [n]).wr F.CLK_REFn_STAT_REASON 4 [n]).raise F.CLK_EVT_RATE_MISMATCH
  else t

/-- MEASUREMENT_WINDOW_END: the window's figure is reported and compared with the range (R32, R43, R461). -/
def State.windowEnd (s : State) (n : Nat) (rate : Int) : State :=
  if n < 5 && s.refOn n && s.qual n != 0 && !(s.ref n).hold && !(s.ref n).lost
      && ((n != 2 && n != 3) || (s.refNom n).isSome) then
    let off := s.offsetOf n rate
    let s := (s.wrS F.CLK_REFn_RATE_RATE rate [n]).setRef n { s.ref n with off := off }
    if off.natAbs ≤ s.rd F.CLK_QUAL_RANGE * 600000 then
      let s := s.setRef n { s.ref n with fbad := false, runLen := 0, passed := true }
      if s.qual n == 1 || s.qual n == 4 then s.wr F.CLK_REFn_STAT_QUAL 2 [n] else s
    else s.windowOut n off
  else s

/-- Blocks in the wait-to-restore time. -/
def State.wtrBlocks (s : State) : Nat := s.rd F.CLK_QUAL_WTR * (s.blocksPerSec / 10)

/-- WAIT_TO_RESTORE_END: all checks have passed for WTR, a whole window among them (R32, R42). -/
def State.wtrEnd (s : State) (n : Nat) : State :=
  if n < 5 && s.qual n == 2 && (s.ref n).passed && decide (s.wtrBlocks ≤ (s.ref n).clean) then
    s.wr F.CLK_REFn_STAT_QUAL 3 [n]
  else s

/-- WTR_LEFT in 0.1 s, rounded up: nonzero only in WAIT. -/
def State.wtrLeft (s : State) (n : Nat) : Nat :=
  if s.qual n == 2 then
    let per := s.blocksPerSec / 10
    min 65535 ((s.wtrBlocks - (s.ref n).clean + per - 1) / per)
  else 0

/-- The source engine of reference `n` reports its time valid: the port's TIME_VALID, or ring time held. -/
def State.sourceValid (s : State) (n : Nat) : Bool :=
  match n with
  | 0 => s.on F.PTP_STAT_TIME_VALID [0]
  | 1 => s.on F.PTP_STAT_TIME_VALID [1]
  | 4 => s.time.ringHeld
  | _ => true

/-- The qualification states a block tick latches (R32, R33, R42): enabling and disabling, an illegal NOM, the source
engines' reports, and the growth of the unbroken stretch. A source that turns valid again while its activity check fails stays
disqualified until its next result. A ring reference that a host enables on a part without a ring is kept, and is disqualified
as its source never reports valid time: R34 gives only the image's case (DESIGN CHOICE, log entry 143). -/
def State.refTick (s : State) (n : Nat) : State :=
  if !s.refOn n then
    if s.qual n == 0 then s
    else (s.wr F.CLK_REFn_STAT_QUAL 0 [n]).setRef n { RefState.init with off := (s.ref n).off }
  else if n == 5 then (s.wr F.CLK_REFn_STAT_QUAL 3 [n]).wr F.CLK_REFn_STAT_REASON 0 [n]
  else
    let s := if s.qual n == 0 then
        (s.wr F.CLK_REFn_STAT_QUAL 2 [n]).setRef n { RefState.init with off := (s.ref n).off }
      else s
    if (n == 2 || n == 3) && (s.refNom n).isNone then
      if s.qual n == 1 && s.rd F.CLK_REFn_STAT_REASON [n] == 6 then s else s.disqualify n 6
    else if !s.sourceValid n then
      if (s.ref n).srcBad then s
      else
        let t := (s.disqualify n 5).breakWindow n
        (t.setRef n { t.ref n with srcBad := true }).raise F.CLK_EVT_SRC_INVALID
    else
      let s := if (s.ref n).srcBad then
          let t := s.setRef n { s.ref n with srcBad := false }
          if (t.ref n).lost then t else t.refAlive n
        else s
      let r := s.ref n
      let s := if s.qual n == 1 && s.rd F.CLK_REFn_STAT_REASON [n] == 6 then s.wr F.CLK_REFn_STAT_QUAL 2 [n] else s
      if r.lost || r.hold then s else s.setRef n { r with clean := r.clean + 1 }

/-- The frequency of a reference against the root's over one block, in fs. -/
def State.drift (s : State) (n : Nat) : Int := roundDiv (((s.ref n).off - s.clk.freq) * 5000) (3 * s.blocksPerSec)

/-- A reference at a tick: the phase that a reference of codes 0, 1 and 4 gave moves on with the two frequencies, over the free
part of the block that followed a result of this block; and the ticks since its last period or result are counted. -/
def State.refCount (s : State) (n : Nat) : State :=
  let r := s.ref n
  let part : Int := if r.fed then s.drawIn .timeInBlock [1, n] 0 65536 else 65536
  s.setRef n { r with
    phase := r.phase.map (· + roundDiv (s.drift n * part) 65536)
    fed := false
    quiet := if r.fed then 0 else r.quiet + 1 }

/-! ## Selection (R35, R36, R44) -/

def State.rank (s : State) (n : Nat) : Nat := s.rd F.CLK_REFn_CFG_RANK [n]

/-- The qualified references, in order of code. -/
def State.qualified (s : State) : List Nat := (List.range 6).filter fun n => s.qual n == 3

/-- The reference a list of candidates yields: measured nearest the crystal's nominal, then the lower code. -/
def State.nearest (s : State) : List Nat → Option Nat
  | [] => none
  | n :: t => match s.nearest t with
    | none => some n
    | some m => if decide ((s.ref m).off.natAbs < (s.ref n).off.natAbs) then some m else some n

/-- The selection of R35; 7 names none. -/
def State.selectByRank (s : State) : Nat :=
  match s.qualified with
  | [] => 7
  | q =>
    let best := q.foldl (fun b n => min b (s.rank n)) 8
    let top := q.filter fun n => s.rank n == best
    let sel := s.rd F.CLK_STAT_SEL
    if top.contains sel then sel else (s.nearest top).getD 7

/-- The selection with the forced reference of R36: the state after a possible FORCE_DROP, and the code. -/
def State.select (s : State) : State × Nat :=
  if s.on F.CLK_CTRL_FORCE_EN then
    let f := s.rd F.CLK_CTRL_FORCE_SEL
    if s.qualified.contains f then (s, f)
    else
      let s := (s.wr F.CLK_CTRL_FORCE_EN 0).raise F.CLK_EVT_FORCE_DROP
      (s, s.selectByRank)
  else (s, s.selectByRank)

/-- Two qualified references of equal rank differ by more than AGREE (R44). The manual does not say whether the crystal takes part:
here it does, at the offset 0 that it has of itself (DESIGN CHOICE, log entry 144). -/
def State.disagreement (s : State) : Bool :=
  let q := s.qualified
  q.any fun a => q.any fun b => s.rank a == s.rank b &&
    decide (s.rd F.CLK_QUAL_AGREE * 60000 < ((s.ref a).off - (s.ref b).off).natAbs)

def State.tickDisagree (s : State) : State :=
  let d := s.disagreement
  (s.raiseIf (d && !s.on F.CLK_STAT_DISAGREE) F.CLK_EVT_DISAGREE).wr F.CLK_STAT_DISAGREE (if d then 1 else 0)

/-! ## Holdover (R45, R46) -/

/-- The sums of the sixteen 1 s intervals before now, of `n` blocks each, the newest first. -/
def intervalSums (n : Nat) : Nat → List Int → List Int
  | 0, _ => []
  | k + 1, h => (h.take n).sum :: intervalSums n k (h.drop n)

/-- U0 in ppb: the population standard deviation of the sixteen interval means, to the nearest ppb (R45). -/
def holdoverU0 (n : Nat) (sums : List Int) : Nat :=
  let tot := sums.sum
  let q := (sums.map fun x => (16 * x - tot) * (16 * x - tot)).sum.toNat
  let d := 38400 * n
  (isqrt (4 * q) + d) / (2 * d)

/-- The timer of R46 in whole ms: the earlier of the two bounds. -/
def holdoverMs (u0 drift flim tlim : Nat) : Nat :=
  let byFreq := (flim - u0) * 100000 / drift
  let b := 200000 * u0
  let byTime := (isqrt (b * b + 4 * drift * (200000000 * tlim)) - b) / (2 * drift)
  min byFreq byTime

/-- Entry to HOLDOVER (R39, R45, R46); `old` is the reference that was followed. -/
def State.enterHoldover (s : State) (old : Nat) : State :=
  let fromLocked := s.rd F.CLK_STAT_STATE == 2
  let n := s.blocksPerSec
  let ticks := if fromLocked then s.clk.lockTicks else 0
  let s := (((s.wr F.CLK_STAT_STATE 3).wr F.CLK_STAT_SEL 7).raise F.CLK_EVT_HO_ENTER).count F.CLK_CNT_HO_V
  if decide (16 * n ≤ ticks) then
    let sums := intervalSums n 16 s.clk.hist
    let u0 := min 0xFFFF (holdoverU0 n sums)
    let ms := holdoverMs u0 (s.rd F.CLK_HO_DRIFT_DRIFT) (s.rd F.CLK_HO_CFG_FLIM) (s.rd F.CLK_HO_CFG_TLIM)
    let s := s.wr F.CLK_HO_EST_U0 u0
    { s with clk := { s.clk with freq := roundDiv sums.sum (16 * n), hoMs := some ms, hoTicks := 0 } }
  else
    let f := if decide (n ≤ ticks) then roundDiv (s.clk.hist.take ticks).sum ticks else (s.ref old).off
    let s := ((s.wr F.CLK_HO_EST_U0 0xFFFF).wr F.CLK_STAT_HO_OOS 1).raise F.CLK_EVT_HO_OOS
    { s with clk := { s.clk with freq := f, hoMs := none, hoTicks := 0 } }

/-- Milliseconds of holdover elapsed at the start of the present block. -/
def State.hoElapsedMs (s : State) : Nat := s.clk.hoTicks * s.block3 / 3000000

/-- CLK_HO_REMAIN (R45, R46). -/
def State.hoRemain (s : State) : Nat :=
  if s.rd F.CLK_STAT_STATE == 3 then
    match s.clk.hoMs with
    | some ms => ms - (s.clk.hoTicks * s.block3 + (s.now3 - s.time.local3)) / 3000000
    | none => 0
  else 0xFFFFFFFF

/-- HO_OOS: the holdover timer expires within the present block. -/
def State.hoOos (s : State) : State :=
  match s.clk.hoMs with
  | some ms =>
    if s.rd F.CLK_STAT_STATE == 3 && decide (ms * 3000000 ≤ (s.clk.hoTicks + 1) * s.block3) then
      let s := { s with clk := { s.clk with hoMs := none } }
      (s.wr F.CLK_STAT_HO_OOS 1).raise F.CLK_EVT_HO_OOS
    else s
  | none => s

/-! ## The states of the steward (R37 to R40) -/

/-- The phase error the steward uses, in fs (R37). References 2 and 3 carry phase within one period only: `phase`, in ps, is what
the steward measures there. References 0, 1 and 4 carry time: their engines' figure, or `phase` before their first result. -/
def State.phaseOf (s : State) (sel : Nat) (phase : Int) : Int :=
  if sel == 2 || sel == 3 then
    let hz := min ((s.refNom sel).getD 48000) s.rateHz
    let x := (1000 * phase * (hz : Int) * 2 + 10 ^ 15) % (2 * 10 ^ 15) - 10 ^ 15
    -- x is the reduced error times 2·hz, in [−10^15, 10^15)
    roundDiv x (2 * hz)
  else (s.ref sel).phase.getD (1000 * phase)

/-- The selection changes to a reference (never none): SWITCH, PULL_ABANDON, HO_EXIT, and the next state (R39). -/
def State.switchTo (s : State) (sel : Nat) : State :=
  let st := s.rd F.CLK_STAT_STATE
  let s := if st == 3 then
      let t := (s.wr F.CLK_STAT_HO_OOS 0).raise F.CLK_EVT_HO_EXIT
      { t with clk := { t.clk with hoMs := none } }
    else s
  let s := (s.raise F.CLK_EVT_SWITCH).count F.CLK_CNT_SWITCH_V
  let s := if st == 1 then (s.raise F.CLK_EVT_PULL_ABANDON).count F.CLK_CNT_PULLAB_V else s
  let s := (s.wr F.CLK_STAT_SEL sel).wr F.CLK_STAT_STATE (if sel == 5 then 0 else 1)
  { s with clk := { s.clk with inWin := 0, integ := none } }

/-- The selection of a tick is carried out: nothing, a switch, or entry to HOLDOVER. Where the crystal is disabled in FREERUN
and nothing else is qualified, the table of R39 has no row: the steward stays in FREERUN and SEL keeps its code (DESIGN CHOICE,
log entry 145). -/
def State.applySelection (s : State) (sel : Nat) : State :=
  let old := s.rd F.CLK_STAT_SEL
  let st := s.rd F.CLK_STAT_STATE
  if sel == old then s
  else if sel == 7 then
    if st == 1 || st == 2 then s.enterHoldover old else s
  else s.switchTo sel

/-- The frequency towards the crystal: at most 0.1 ppm per second (R33). -/
def State.slew (s : State) : Int :=
  let step := s.drawIn .slewStep [] 1 (if s.rate48 then 40 else 20)
  let f := s.clk.freq
  if f < 0 then min 0 (f + step) else max 0 (f - step)

/-- Ticks of a nominal interval of a selected reference, after which it has stopped contributing (R38): a Sync interval for the
PTP references, one block for the others. -/
def State.feedTicks (s : State) (sel : Nat) : Nat :=
  if sel < 2 then s.blocksPerSec * 2 ^ (s.rdS F.PTP_CTRL_LOG_SYNC [sel] + 4).toNat / 16 else 1

/-- The selected reference contributes at this tick: a period or a result has come within its nominal interval (R38). -/
def State.refContributes (s : State) (sel : Nat) : Bool := decide ((s.ref sel).quiet < s.feedTicks sel)

/-- One update of the proportional-integral loop of R37 for an error of `e` fs: the frequency, and the integral term. Gains are
2ω and ω² for the damping 1.0. On the tick on which the error enters LOCKWIN the integral starts at the root's frequency, which
stays; the correction is limited to ±`slope` about the reference's frequency `off`. -/
def State.loopStep (s : State) (off slope e : Int) : Int × Int :=
  match s.clk.integ with
  | none => (clampInt (off - slope) (off + slope) s.clk.freq, 1000000 * s.clk.freq)
  | some i =>
    let w := Config.loopOmega
    let i := i + roundDiv (w * w * e * 6) (10 ^ 10 * s.blocksPerSec)
    (clampInt (off - slope) (off + slope) (roundDiv i 1000000 + roundDiv (w * e * 12) (10 ^ 10)), i)

/-- The tick's steering for a phase error of `e` fs: the pull outside LOCKWIN, the loop inside it, the slew, or the held
frequency. A selected reference that has stopped contributing leaves the frequency as it was (R38). `was`: the state before the
tick. CLK_PHASE keeps its last value where no phase is measured (DESIGN CHOICE, log entry 146). -/
def State.steer (s : State) (was : Nat) (e : Int) : State :=
  let st := s.rd F.CLK_STAT_STATE
  let sel := s.rd F.CLK_STAT_SEL
  if st == 0 then { s with clk := { s.clk with freq := s.slew, integ := none } }
  else if st == 3 then
    { s with clk := { s.clk with hoTicks := if was == 3 then s.clk.hoTicks + 1 else 0, integ := none } }
  else if !s.refContributes sel then s
  else
    let win : Nat := s.rd F.CLK_PULL_LOCKWIN * 1000000
    let slope : Int := (s.rd F.CLK_PULL_SLOPE : Int) * 60000
    let off := (s.ref sel).off
    let pull := if 0 < e then off + slope else off - slope
    let loop := s.loopStep off slope e
    let s := s.wrS F.CLK_PHASE_ERR (clampInt (-2147483648) 2147483647 (roundDiv e 1000000))
    let s := { s with clk := { s.clk with err := e } }
    if st == 1 then
      if e.natAbs ≤ win then
        { s with clk := { s.clk with inWin := s.clk.inWin + 1, freq := loop.1, integ := some loop.2 } }
      else { s with clk := { s.clk with inWin := 0, freq := pull, integ := none } }
    else if e.natAbs ≤ 4 * win then { s with clk := { s.clk with freq := loop.1, integ := some loop.2 } }
    else
      let s := (s.raise F.CLK_EVT_UNLOCK).wr F.CLK_STAT_STATE 1
      { s with clk := { s.clk with inWin := 0, freq := pull, integ := none } }

/-- The root never departs from nominal by more than RANGE and SLOPE together (R26). -/
def State.limitRoot (s : State) : State :=
  let lim : Int := (s.rd F.CLK_QUAL_RANGE * 600000 + s.rd F.CLK_PULL_SLOPE * 60000 : Nat)
  { s with clk := { s.clk with freq := clampInt (-lim) lim s.clk.freq } }

/-- LOCK: the phase error has stayed within LOCKWIN for 1 s (R39). -/
def State.lockNow (s : State) : State :=
  if s.rd F.CLK_STAT_STATE == 1 && decide (s.blocksPerSec < s.clk.inWin) then
    let s := (s.wr F.CLK_STAT_STATE 2).raise F.CLK_EVT_LOCK
    { s with clk := { s.clk with hist := [], lockTicks := 0 } }
  else s

/-- The block that ends was spent in LOCKED: its frequency joins the history of R45. -/
def State.recordLocked (s : State) : State :=
  if s.rd F.CLK_STAT_STATE == 2 then
    { s with clk := { s.clk with
        hist := (s.clk.freq :: s.clk.hist).take (16 * s.blocksPerSec), lockTicks := s.clk.lockTicks + 1 } }
  else s

/-- CLK_FREQ in 0.01 ppb, saturating at the register's limits. -/
def State.freqReg (s : State) : Int := clampInt (-2147483648) 2147483647 (roundDiv s.clk.freq 6)

/-- All six qualifiers latch their states. -/
def State.refTicks (s : State) : State :=
  (List.range 6).foldl State.refTick ((List.range 5).foldl State.refCount s)

/-! ## Clock outputs (R25, R48) -/

/-- PPS_OUT falls 1 ms after it rose. -/
def State.ppsFall (s : State) : State :=
  match s.clk.pps with
  | none => s
  | some r =>
    if r < s.block3 then
      ({ s with clk := { s.clk with pps := none } } : State).emit (.pps false (s.time.local3 + r))
    else { s with clk := { s.clk with pps := some (r - s.block3) } }

/-- PPS_OUT rises at the second of local time that the present block holds. -/
def State.ppsRise (s : State) : State :=
  let second := (s.time.local3 + 2999999999) / 3000000000 * 3000000000
  if s.on F.CLK_OUTCFG_PPS_EN && decide (second < s.time.local3 + s.block3) then
    ({ s with clk := { s.clk with pps := some (3000000 - (s.time.local3 + s.block3 - second)) } } : State).emit (.pps true second)
  else s

/-- PPS_OUT is low from now on. -/
def State.ppsLow (s : State) : State :=
  if s.clk.pps.isSome then ({ s with clk := { s.clk with pps := none } } : State).emit (.pps false s.now3) else s

/-- How often WCLK_OUT rises in a block: never, at 48 kHz, at 96 kHz, or at the block tick. -/
def State.wclkEdges (s : State) : Nat :=
  match s.rd F.CLK_OUTCFG_WCLK_MODE with
  | 0 => 0
  | 1 => 48000 / s.blocksPerSec
  | 2 => 96000 / s.blocksPerSec
  | _ => 1

/-- The clock outputs over the block that begins; outside RUN and QUIET they are low. -/
def State.clockOutputs (s : State) : State :=
  if !s.awake then s.ppsLow
  else
    let s := s.ppsFall.ppsRise
    if s.wclkEdges == 0 then s else s.emit (.wclk s.wclkEdges)

/-- A read of CLK_BLOCK_LO latches the upper half (R31). -/
def State.latchBlock (s : State) : State := s.setWord R.CLK_BLOCK_HI (BitVec.ofNat 32 (s.time.block / 2 ^ 32))

/-- A read of CLK_EPOCH_NS latches the seconds. -/
def State.latchEpoch (s : State) : State :=
  let sec := s.time.epoch3 / 3 / 10 ^ 9
  (s.setWord R.CLK_EPOCH_SL (BitVec.ofNat 32 sec)).setWord R.CLK_EPOCH_SH (BitVec.ofNat 32 (sec / 2 ^ 32 % 65536))

end Sys2Proof.Machine
end

