-- ==== Sys2Proof/Machine/Operands.lean ====
section
/-!
DEFINITION. The operands of the Luveren cores: register views with the delays of R273 and R274, the ring of R271, the
data space of R266, and the second operands of the ALU formats.
-/

namespace Sys2Proof.Machine

/-! ## Cores and their sets (R265, R268) -/

def State.luv (s : State) (c : Nat) : LuvCore := Tab.get LuvCore.init s.core c

def State.setLuv (s : State) (c : Nat) (x : LuvCore) : State := { s with core := Tab.set LuvCore.init s.core c x }

/-- The set that the core's instructions see. -/
def LuvCore.set (x : LuvCore) : LuvSet := if x.inShadow then x.shadow else x.main

/-- Replaces it. -/
def LuvCore.withSet (x : LuvCore) (r : LuvSet) : LuvCore := if x.inShadow then { x with shadow := r } else { x with main := r }

/-- A v register as a signed number. -/
def LuvSet.vS (r : LuvSet) (n : VReg) : Int := (r.v.get n).toInt

/-- Writes of a set that land at once. -/
def LuvSet.setV (r : LuvSet) (n : VReg) (x : BitVec 24) : LuvSet := { r with v := r.v.set n x }

def LuvSet.setW (r : LuvSet) (n : WReg) (x : BitVec 56) : LuvSet := { r with w := r.w.set n x }

/-- A late write lands. -/
def LuvSet.land (r : LuvSet) (l : LateWrite) : LuvSet :=
  match l.reg with
  | .v n => { r with v := r.v.set n (BitVec.ofNat 24 l.val) }
  | .p n => { r with p := r.p.set n (BitVec.ofNat 18 l.val) }
  | .u n => { r with u := r.u.set n (BitVec.ofNat 18 l.val) }
  | .e n => { r with e := r.e.set n (BitVec.ofNat 18 l.val) }

/-- All writes under way land, in program order. -/
def LuvSet.landAll (r : LuvSet) : LuvSet := { r.late.foldl LuvSet.land r with late := [] }

/-- One instruction passes: writes whose delay ends land, and the views of accumulators and flags move on. The
instruction's own writes come after (R274). -/
def LuvSet.tick (r : LuvSet) : LuvSet :=
  let wait := (r.late.filter fun l => l.left != 1).map fun l => { l with left := l.left - 1 }
  let r := (r.late.filter fun l => l.left == 1).foldl LuvSet.land r
  { r with late := wait, w1 := r.w, w2 := r.w1, fw1 := r.fw }

/-- A write that lands after `left` further instructions. -/
def LuvSet.after (r : LuvSet) (left : Nat) (reg : LateReg) (x : Nat) : LuvSet :=
  { r with late := r.late ++ [{ reg := reg, val := x, left := left }] }

/-- The newest value of a register other than v: a write under way, or the register (R273 delays address use only). -/
def LuvSet.newest (r : LuvSet) (reg : LateReg) : Nat :=
  match r.late.reverse.find? fun l => l.reg == reg with
  | some l => l.val
  | none => match reg with
    | .v n => (r.v.get n).toNat
    | .p n => (r.p.get n).toNat
    | .u n => (r.u.get n).toNat
    | .e n => (r.e.get n).toNat

/-! ## Addressing (R271) -/

/-- The smallest power of two that is at least `l`, from 2^k on. -/
def pow2From (l : Nat) : Nat → Nat → Nat
  | 0, k => 2 ^ k
  | n + 1, k => if l ≤ 2 ^ k then 2 ^ k else pow2From l n (k + 1)

/-- A pointer after post-modification by a signed step, with extent `e`. -/
def ringStep (p e : Nat) (step : Int) : Nat :=
  if e = 0 then (((p : Int) + step) % 262144).toNat
  else
    let b := p / pow2From e 18 0 * pow2From e 18 0
    (b + (((p - b : Nat) : Int) + step) % (e : Int)).toNat

/-- Pointer `n` moves by a step from where the set `old`, which the instruction reads, has it: a late write of a pointer, update or
extent register that lands in this slot is not used yet (R273), and of the pointer it is overridden (R274). -/
def LuvSet.modify (r old : LuvSet) (n : AReg) (step : Int) : LuvSet :=
  { r with p := r.p.set n (BitVec.ofNat 18 (ringStep (old.p.get n).toNat (old.e.get n).toNat step)) }

/-- The post-modification of a load or store (R296). -/
def LuvSet.postMod (r old : LuvSet) (n : AReg) (m : PostMod) : LuvSet :=
  match m with
  | .none => r
  | .byU => r.modify old n (old.u.get n).toInt
  | .byImm i => r.modify old n i.toInt

/-- The post-modification of a multiply-accumulate operand of a size (R294). -/
def LuvSet.macMod (r old : LuvSet) (n : AReg) (m : MacMod) (size : Nat) : LuvSet :=
  match m with
  | .none => r
  | .up => r.modify old n size
  | .down => r.modify old n (-(size : Int))
  | .byU => r.modify old n (old.u.get n).toInt

/-! ## The data space (R266, R267, R285) -/

/-- A sample as a 32-bit word: bits [31:24] extend its sign. -/
def sampleWord (x : Int) : Nat := ofSigned 32 x

/-- Word `j` of input frame `f` of core `c`; the sample of an unmapped frame is open (log entry 85). -/
def State.inputFrame (s : State) (c f j : Nat) : Nat :=
  if s.on F.LDCc_XINf_EN [c, f] then
    let i := s.rd F.LDCc_XINf_INDEX [c, f]
    let xs := if s.on F.LDCc_XINf_KIND [c, f] then (Tab.get ([], []) s.pipe.outPre i).1 else Tab.get [] s.pipe.inPre i
    sampleWord (xs.getD j 0)
  else sampleWord (toSigned 24 (s.draw .readValue [1, (c : Int), (f : Int), (j : Int)]))

/-- A word of the data space below the fabric window. Which word of the parameter region holds which parameter of R286 the manual
does not say: every word of it is a free value of the core, the address and the block (log entry 85). -/
def State.luvRead (s : State) (c a : Nat) : Nat :=
  let x := s.luv c
  if a < 0x8000 then Tab.get 0 x.smem a
  else if a < 0x10000 then Tab.get 0 x.kmem (a - 0x8000)
  else if a < 0x12000 then s.inputFrame c ((a - 0x10000) / 32) (a % 32)
  else if a < 0x14000 then 0
  else if a < 0x18000 then Config.free .readValue [2, (c : Int), (a : Int), (s.time.block : Int)] % 2 ^ 32
  else 0

/-- A write below the fabric window; also: whether it is ignored (PW). -/
def LuvCore.write (x : LuvCore) (a v : Nat) : LuvCore × Bool :=
  if a < 0x8000 then ({ x with smem := Tab.set 0 x.smem a v }, false)
  else if a < 0x10000 then ({ x with kmem := Tab.set 0 x.kmem (a - 0x8000) v }, false)
  else if 0x12000 ≤ a ∧ a < 0x14000 then ({ x with frames := Tab.put x.frames (a - 0x12000) (some v) }, false)
  else (x, true)

/-! ## Second operands of the ALU (R298) -/

/-- The value of operand b, 24 bits. -/
def LuvSet.aluB (r : LuvSet) (b : AluB) : BitVec 24 :=
  match b with
  | .reg n => r.v.get n
  | .imm i => i.signExtend 24

/-- A shift count. -/
def LuvSet.shiftB (r : LuvSet) (b : ShiftB) : Nat :=
  match b with
  | .reg n => (r.v.get n).toNat % 32
  | .imm i => i.val

end Sys2Proof.Machine
end

