-- ==== Sys2Proof/Machine/Flags.lean ====
section
/-!
DEFINITION. The flag word of a Luveren core (R269, R300), its conditions (R306), and the saturating results that set
it (R299, R301, R302).
-/

namespace Sys2Proof.Machine

/-- One bit of a flag word. -/
def flagBit (i : Nat) (b : Bool) (w : BitVec 16) : BitVec 16 :=
  if b then w ||| BitVec.ofNat 16 (2 ^ i) else w &&& ~~~(BitVec.ofNat 16 (2 ^ i))

/-- Sets Z and N from an exact result, V as given, and SV with V. -/
def LuvSet.flagsZNV (r : LuvSet) (result : Int) (v : Bool) : LuvSet :=
  let w := flagBit 2 v (flagBit 1 (decide (result < 0)) (flagBit 0 (decide (result = 0)) r.fw))
  { r with fw := if v then flagBit 3 true w else w }

/-- Sets V as given, and SV with V. -/
def LuvSet.flagsV (r : LuvSet) (v : Bool) : LuvSet :=
  let w := flagBit 2 v r.fw
  { r with fw := if v then flagBit 3 true w else w }

/-- A sticky bit: MIS is bit 4, PW bit 5. -/
def LuvSet.sticky (r : LuvSet) (i : Nat) (b : Bool) : LuvSet := if b then { r with fw := flagBit i true r.fw } else r

/-- A condition on a flag word. -/
def condHolds (k : Cond) (w : BitVec 16) : Bool :=
  let z := w.getLsbD 0
  let n := w.getLsbD 1
  let v := w.getLsbD 2
  let sv := w.getLsbD 3
  match k with
  | .al => true
  | .eq => z
  | .ne => !z
  | .lt => n
  | .ge => !n
  | .le => n || z
  | .gt => !n && !z
  | .vs => v
  | .vc => !v
  | .ss => sv
  | .sc => !sv

/-- A value saturated to 24 bits (R299). -/
def sat24 (x : Int) : Int := clampInt (-8388608) 8388607 x

/-- A value saturated to an accumulator (R270). -/
def sat56 (x : Int) : Int := clampInt (-36028797018963968) 36028797018963967 x

/-- An ALU result that saturates goes to a v register with its flags. -/
def LuvSet.aluSat (r : LuvSet) (d : VReg) (x : Int) : LuvSet :=
  (r.setV d (BitVec.ofInt 24 (sat24 x))).flagsZNV (sat24 x) (decide (sat24 x ≠ x))

/-- An ALU result of 24 bits: V becomes 0. -/
def LuvSet.aluBits (r : LuvSet) (d : VReg) (x : BitVec 24) : LuvSet := (r.setV d x).flagsZNV x.toInt false

/-- An accumulator result that saturates, with V and SV. -/
def LuvSet.accSat (r : LuvSet) (j : WReg) (x : Int) : LuvSet :=
  (r.setW j (BitVec.ofInt 56 (sat56 x))).flagsV (decide (sat56 x ≠ x))

/-- An accumulator's value times 2^sh, as a fraction: numerator and denominator. -/
def shifted (v sh : Int) : Int × Nat := if 0 ≤ sh then (v * (2 ^ sh.toNat : Nat), 1) else (v, 2 ^ (-sh).toNat)

/-- RND of R302 before saturation. -/
def rndValue (v sh : Int) : Int := roundDiv (shifted v sh).1 ((shifted v sh).2 * 8388608)

/-- TRN of R302 before saturation. -/
def trnValue (v sh : Int) : Int := (shifted v sh).1 / (((shifted v sh).2 * 8388608 : Nat) : Int)

end Sys2Proof.Machine
end

