-- ==== Sys2Proof/Machine/Memory.lean ====
section
/-!
DEFINITION. The byte memories of the device and the fabric's addresses (R387, R388): populated DRAM, the flash, and
host memory through PCIe, which lies outside the device. Also the record of a bus error (R396).
-/

namespace Sys2Proof.Machine

/-! ## Byte memories in canonical form -/

/-- What an unlisted byte of DRAM reads as (log entry 6). -/
def dramBlank : Byte := 0

/-- What an unlisted byte of the flash reads as: the erased value (log entry 7). -/
def flashBlank : Byte := 0xFF

/-- Reads one byte. -/
def Memory.read (d : Byte) (m : List Host.Cell) (a : Nat) : Byte := Tab.get d m a

/-- Writes one byte, keeping the canonical form. -/
def Memory.write (d : Byte) (m : List Host.Cell) (a : Nat) (b : Byte) : List Host.Cell := Tab.set d m a b

/-- The canonical form: addresses rise strictly, and no listed byte equals the unlisted one. -/
def Memory.wf (d : Byte) (m : List Host.Cell) : Bool := Tab.wf d m

/-- Reads `n` bytes from `a` on. -/
def Memory.readBytes (d : Byte) (m : List Host.Cell) : Nat → Nat → List Byte
  | _, 0 => []
  | a, n + 1 => Memory.read d m a :: Memory.readBytes d m (a + 1) n

/-- Writes bytes from `a` on, in ascending order. -/
def Memory.writeBytes (d : Byte) : List Host.Cell → Nat → List Byte → List Host.Cell
  | m, _, [] => m
  | m, a, b :: bs => Memory.writeBytes d (Memory.write d m a b) (a + 1) bs

/-- Populated DRAM in bytes (R462). -/
def State.dramBytes (s : State) : Nat := s.rd F.SYS_DRAMSIZE_MIB * 1048576

def State.dramRead (s : State) (off n : Nat) : List Byte := Memory.readBytes dramBlank s.dram off n

def State.dramWrite (s : State) (off : Nat) (bs : List Byte) : State :=
  { s with dram := Memory.writeBytes dramBlank s.dram off bs }

def State.flashRead (s : State) (off n : Nat) : List Byte := Memory.readBytes flashBlank s.flash off n

def State.flashWrite (s : State) (off : Nat) (bs : List Byte) : State :=
  { s with flash := Memory.writeBytes flashBlank s.flash off bs }

/-! ## Bus errors (R395, R396) -/

/-- The causes of R395. -/
inductive BusCause where
  | unmapped | align | width | path | nodev | busy | timeout | ring
  deriving DecidableEq, Repr

/-- The code of a cause. -/
def BusCause.code : BusCause → Nat
  | .unmapped => 1 | .align => 2 | .width => 3 | .path => 4 | .nodev => 5 | .busy => 6 | .timeout => 7 | .ring => 8

/-- Records a bus error, the newest over the last, counts it and raises BERR (R396). -/
def State.busError (s : State) (cause master : Nat) (write : Bool) (slot addr : Nat) : State :=
  let s := (s.wr F.FAB_BERR_INFO_CAUSE cause).wr F.FAB_BERR_INFO_MASTER master
  let s := (s.wr F.FAB_BERR_INFO_WRITE (if write then 1 else 0)).wr F.FAB_BERR_INFO_SLOT slot
  let s := (s.wr F.FAB_BERR_ADDR_LO_V addr).wr F.FAB_BERR_ADDR_HI_V (addr / 2 ^ 32)
  ((s.wr F.FAB_BERR_TIME_V s.stamp).count F.FAB_CNT_BERR_V).raise F.FAB_EVT_BERR

/-! ## Masters (R388, R391) -/

/-- A master's port drains (R391). -/
def State.drain (s : State) (m : Nat) : State :=
  if s.fab.drains.contains m then s else { s with fab := { s.fab with drains := s.fab.drains ++ [m] } }

/-- The fabric runs with legacy paths only (R388). -/
def State.legacy (s : State) : Bool := s.on F.FAB_CFG_LEGACY

/-! ## DRAM and host memory, as the engines reach them (R387, R388) -/

/-- The base of DRAM and of host memory in the fabric. -/
def dramBase : Nat := 0x400000000
def hostBase : Nat := 0x800000000

/-- Where an engine's access of `n` bytes goes. -/
inductive MemTarget where
  | dram (off : Nat)
  | host (addr : Nat)
  | fault (cause : BusCause)
  deriving DecidableEq, Repr

/-- The host address that a fabric address of host memory stands for. -/
def State.hostAddr (s : State) (addr : Nat) : Nat :=
  (s.rd F.FAB_HOSTBASE_HI_V * 2 ^ 32 + s.rd F.FAB_HOSTBASE_LO_V * 4096 + (addr - hostBase)) % 2 ^ 64

/-- The target of an access to DRAM or host memory: beyond populated DRAM nothing exists, other addresses lie on no
path of these engines (R388). -/
def State.memTarget (s : State) (addr n : Nat) : MemTarget :=
  if dramBase ≤ addr ∧ addr < hostBase then
    if addr - dramBase + n ≤ s.dramBytes then .dram (addr - dramBase) else .fault .unmapped
  else if hostBase ≤ addr ∧ addr < 2 * hostBase then .host (s.hostAddr addr)
  else if addr < 0x100000000 then .fault .path
  else .fault .unmapped

/-- Bytes read from host memory, which lies outside the device: free values (log entry 8). -/
def State.hostBytes (s : State) (addr : Nat) : Nat → List Byte
  | 0 => []
  | n + 1 => BitVec.ofNat 8 (s.draw .readValue [(addr : Int)]) :: State.hostBytes s (addr + 1) n

/-- An engine reads bytes of DRAM or host memory, or gets a cause. -/
def State.memRead (s : State) (addr n : Nat) : Except BusCause (List Byte) :=
  match s.memTarget addr n with
  | .dram off => .ok (s.dramRead off n)
  | .host h => .ok (s.hostBytes h n)
  | .fault c => .error c

/-- An engine writes bytes to DRAM or host memory, or gets a cause. -/
def State.memWrite (s : State) (addr : Nat) (bs : List Byte) : Except BusCause State :=
  match s.memTarget addr bs.length with
  | .dram off => .ok (s.dramWrite off bs)
  | .host h => .ok (s.emit (.hostMemWrite h bs))
  | .fault c => .error c

end Sys2Proof.Machine
end

