-- ==== Sys2Proof/Machine/Mac.lean ====
section
/-!
DEFINITION. The MAC of a network port: counters (R84, R85), the longest frame (R69), and the transmitter: strict priority,
the credit-based shaper, and what flow control holds (R78 to R80, R101, R103). Times of the transmitter are in 1/150 ns of the time
since the reset, so that a bit takes a whole number of units at both line rates.
-/

namespace Sys2Proof.Machine

def State.netPort (s : State) (p : Nat) : NetPort := Tab.get NetPort.init s.net p

def State.setNetPort (s : State) (p : Nat) (x : NetPort) : State :=
  { s with net := Tab.set NetPort.init s.net p x }

/-! ## MAC counters (R84, R85) -/

/-- Counter `i` of a port grows by `n`, wrapping at 2^40; bit 39 rising sets its half-range bit and CNT_HALF. -/
def State.macCount (s : State) (p i : Nat) (n : Nat := 1) : State :=
  let x := s.netPort p
  let old := Tab.get 0 x.cnt i
  let new := (old + n) % 2 ^ 40
  let s := s.setNetPort p { x with cnt := Tab.set 0 x.cnt i new }
  if old / 2 ^ 39 == 0 && new / 2 ^ 39 == 1 then
    let s := if i < 32 then s.wr F.NP_CNT_HALF_LO_V (s.rd F.NP_CNT_HALF_LO_V [p] ||| 2 ^ i) [p]
      else s.wr F.NP_CNT_HALF_HI_V (s.rd F.NP_CNT_HALF_HI_V [p] ||| 2 ^ (i - 32)) [p]
    s.raise F.NP_EVT_CNT_HALF [p]
  else s

/-- The size bucket of a length, counted from the first bucket of its direction. -/
def sizeBucket (len : Nat) : Nat :=
  if len ≤ 64 then 0 else if len ≤ 127 then 1 else if len ≤ 255 then 2 else if len ≤ 511 then 3
  else if len ≤ 1023 then 4 else if len ≤ 1518 then 5 else 6

/-- Which of unicast, multicast and broadcast (0, 1, 2) a destination address is. -/
def addrKind (dst : Nat) : Nat :=
  if dst == 2 ^ 48 - 1 then 2 else if dst / 2 ^ 40 % 2 == 1 then 1 else 0

/-- Counts a good frame from counter `base` on (RX 0, TX 24): octets, frames, kind of address, tag, size. -/
def State.countFrame (s : State) (p : Nat) (rx : Bool) (dst len : Nat) (tagged : Bool) : State :=
  let s := s.macCount p (if rx then 0 else 24) len
  let s := s.macCount p (if rx then 1 else 25)
  let s := s.macCount p ((if rx then 2 else 26) + addrKind dst)
  let s := if tagged then s.macCount p (if rx then 6 else 29) else s
  s.macCount p ((if rx then 7 else 30) + sizeBucket len)

/-- A read of the first word of a counter latches the second (R84). -/
def State.latchCounter (s : State) (p i : Nat) : State :=
  s.setWord R.NP_CNTi_HI (BitVec.ofNat 32 (Tab.get 0 (s.netPort p).cnt i / 2 ^ 32)) [p, i]

/-! ## The port -/

/-- The port's link is up. -/
def State.linkUp (s : State) (p : Nat) : Bool := s.on F.NP_STAT_LINK [p]

/-- The longest frame accepted or sent with `n` tags (R69). -/
def State.lengthLimit (s : State) (p n : Nat) : Nat :=
  s.rd F.NP_CFG_MAXFRM [p] + (if s.on F.NP_CFG_TAG_AWARE [p] then 4 * n else 0)

/-- The port's hardware address as one number, its first byte the most significant. -/
def State.macAddr (s : State) (p : Nat) : Nat :=
  ofBe (leBytes 4 (s.rd F.NP_MAC_LO_V [p]) ++ leBytes 2 (s.rd F.NP_MAC_HI_V [p]))

/-- The port runs at 10 Gb/s. -/
def State.port10 (s : State) (p : Nat) : Bool := s.rd F.NP_CFG_SPEED [p] == 0

/-- The line rate of a port in Mb/s. -/
def State.lineRate (s : State) (p : Nat) : Nat := if s.port10 p then 10000 else 25000

/-- How long a frame occupies the medium, with its preamble and the gap behind it. -/
def State.frameTime (s : State) (p len : Nat) : Nat := (len + 20) * 8 * (if s.port10 p then 15 else 6)

/-! ## Stream packets that are not sent (R103) -/

/-- The sample rate of an nsr code in Hz; invalid codes give none. -/
def nsrHz : Nat → Option Nat
  | 1 => some 8000 | 2 => some 16000 | 3 => some 32000 | 4 => some 44100 | 5 => some 48000
  | 6 => some 88200 | 7 => some 96000 | 8 => some 176400 | 9 => some 192000 | 10 => some 24000
  | _ => none

/-- The newest error of the stream engine is recorded over the last. -/
def State.strLog (s : State) (code tx n seq : Nat) : State :=
  let s := ((s.wr F.STR_ERRLOG_CODE code).wr F.STR_ERRLOG_TX tx).wr F.STR_ERRLOG_CTX n
  (s.wr F.STR_ERRSEQ_SEQ seq).wr F.STR_ERRTIME_NS s.stamp

/-- A transmit error: code 11 late, 12 port down. -/
def State.txErr (s : State) (n code seq : Nat) : State :=
  if code == 11 then
    ((((s.count F.TXn_CNT_TX_LATE_V [n]).wr F.TXn_STAT_STICKY_LATE 1 [n]).raise F.STR_EVT_TX_LATE)).strLog 11 1 n seq
  else
    ((((s.count F.TXn_CNT_TX_DOWN_V [n]).wr F.TXn_STAT_STICKY_DOWN 1 [n]).raise F.STR_EVT_TX_DOWN)).strLog 12 1 n seq

/-- Local time in thirds of a ns at a time of the transmitter. -/
def State.localAt3 (s : State) (t : Nat) : Int := ((t / 50 : Nat) : Int) + (s.time.local3 : Int) - (s.time.up3 : Int)

/-- Local time has reached the time field of a packet: the nanosecond of an AAF packet, the end of the media clock period of an
RTP packet (log entry 153). -/
def TxPacket.late (p : TxPacket) (at3 : Int) : Bool :=
  if p.rtp then decide ((p.due3 : Int) + 3000000000 / ((nsrHz p.rate).getD 48000 : Nat) ≤ at3) else decide ((p.due3 : Int) < at3)

/-! ## The credit-based shaper (R78) -/

/-- idleSlope of a class in Mb/s, the units of credit per unit of time. -/
def State.idleSlope (s : State) (p level : Nat) : Nat := if level == 1 then s.rd F.NP_CBS_A_IDLE [p] else s.rd F.NP_CBS_B_IDLE [p]

/-- The largest frame, in units of credit. -/
def State.largestFrame (s : State) (p : Nat) : Nat := s.lengthLimit p 2 * 8 * 150000

/-- hiCredit: what a class gains while the largest burst before it passes: one frame for class A; for class B one frame and
what class A sends behind it (R78, log entry 154). -/
def State.hiCredit (s : State) (p level : Nat) : Int :=
  let r := s.lineRate p
  let burst := if level == 1 then s.largestFrame p else s.largestFrame p + s.largestFrame p * r / (r - s.idleSlope p 1)
  ((s.idleSlope p level * burst / r : Nat) : Int)

def NetPort.credit (x : NetPort) (level : Nat) : Int × Nat := if level == 1 then x.credA else x.credB

def NetPort.setCredit (x : NetPort) (level : Nat) (c : Int × Nat) : NetPort :=
  if level == 1 then { x with credA := c } else { x with credB := c }

/-- A class without a waiting frame: credit above 0 is lost, credit below 0 grows to 0. -/
def creditIdle (idle : Nat) (c : Int) (span : Nat) : Int := if 0 < c then 0 else min 0 (c + (idle : Int) * span)

/-- The credit of a class at time `t` whose oldest frame waits since `wait`. -/
def State.creditAt (s : State) (p level wait t : Nat) : Int :=
  let c := (s.netPort p).credit level
  let w := max wait c.2
  let c0 := if c.2 < wait then creditIdle (s.idleSlope p level) c.1 (wait - c.2) else c.1
  min (max c0 (s.hiCredit p level)) (c0 + (s.idleSlope p level : Int) * ((t - w : Nat) : Int))

/-- When the oldest frame of a level may start: the credit of its class is not negative. A class whose idleSlope is 0 never
gains credit. -/
def State.mayStart (s : State) (p : Nat) (f : TxWait) : Option Nat :=
  if f.level == 3 then some f.ready
  else
    let w := max f.ready ((s.netPort p).credit f.level).2
    let c := s.creditAt p f.level f.ready w
    let idle := s.idleSlope p f.level
    if 0 ≤ c then some w else if idle == 0 then none else some (w + ((-c).toNat + idle - 1) / idle)

/-! ## Flow control on the transmitter (R80) -/

/-- Traffic of a priority is held: mode 2, and a pause of all or of that priority runs. -/
def State.prioHeld (s : State) (p prio : Nat) : Bool :=
  s.rd F.NP_CFG_FC_MODE [p] == 2 && (s.netPort p).paused.any fun e => e.1 == 8 || e.1 == prio

/-- A host queue's frame is held: mode 1 while any pause runs, mode 2 by its priority. -/
def State.hostHeld (s : State) (p prio : Nat) : Bool :=
  (s.rd F.NP_CFG_FC_MODE [p] == 1 && !(s.netPort p).paused.isEmpty) || s.prioHeld p prio

/-! ## Sending in strict priority (R78) -/

/-- The frame that goes out next, and when: of the oldest frames of the three levels that flow control leaves, the highest level
that may start when the medium and one of them are ready. -/
def State.txNext (s : State) (p : Nat) : Option (Nat × TxWait) :=
  let x := s.netPort p
  let heads := [1, 2, 3].filterMap fun l => x.txq.find? fun f => f.level == l && !s.prioHeld p f.prio
  let ready := heads.filterMap fun f => (s.mayStart p f).map fun t => (t, f)
  match ready with
  | [] => none
  | e :: rest =>
    let start := max x.free (rest.foldl (fun t r => min t r.1) e.1)
    (ready.find? fun r => decide (r.1 ≤ start)).map fun r => (start, r.2)

/-- A frame of `len` bytes occupies the medium from `start` on. -/
def State.occupy (s : State) (p start len : Nat) : State :=
  s.setNetPort p { s.netPort p with free := start + s.frameTime p len }

/-- A frame starts: a stream packet that is late is discarded (R103); any other leaves the device, the MAC counts it, and its
class pays for its time. -/
def State.txStart (s : State) (p start : Nat) (f : TxWait) : State :=
  let late := match f.out with
    | .streamPacket _ _ k _ => k.late (s.localAt3 start)
    | _ => false
  let drop := fun s : State => let x := s.netPort p; s.setNetPort p { x with txq := x.txq.erase f }
  if late then match f.out with
    | .streamPacket _ _ k _ => (drop s).txErr k.ctx 11 k.seq
    | _ => drop s
  else
    let left := s.creditAt p f.level f.ready start + ((s.idleSlope p f.level : Int) - (s.lineRate p : Int)) * (s.frameTime p f.len : Nat)
    let t := (drop s).occupy p start f.len
    let t := if f.level == 3 then t
      else t.setNetPort p ((t.netPort p).setCredit f.level (left, start + s.frameTime p f.len))
    let t := (t.emit f.out).countFrame p false f.dst f.len f.tagged
    match f.out with
    | .streamPacket _ _ k _ => t.count F.TXn_CNT_PKTS_V [k.ctx]
    | _ => t

/-- Frames start that may until `now`, `n` at most. -/
def State.txServe (s : State) (p now : Nat) : Nat → State
  | 0 => s
  | n + 1 =>
    match s.txNext p with
    | some (start, f) => if now < start then s else (s.txStart p start f).txServe p now n
    | none => s

/-- The transmitter of a port works until the present moment. -/
def State.serve (s : State) (p : Nat) : State := s.txServe p (50 * s.upNow3) (s.netPort p).txq.length

/-- A frame is due for transmission: on a link that is down it is discarded and counted (R68), otherwise it waits for its turn. -/
def State.sendFrame (s : State) (p level prio dst len : Nat) (tagged : Bool) (out : Output) : State :=
  if s.linkUp p then
    let x := s.netPort p
    let f : TxWait := { level := level, prio := prio, dst := dst, len := max 64 len, tagged := tagged, out := out, ready := 50 * s.upNow3 }
    (s.setNetPort p { x with txq := x.txq ++ [f] }).serve p
  else s.macCount p 39

/-- A frame that waits ends with its port's link: it is counted, a stream packet also by its context (R68, R103). -/
def State.dropWaiting (s : State) (p : Nat) (f : TxWait) : State :=
  match f.out with
  | .streamPacket _ _ k _ => (s.macCount p 39).txErr k.ctx 12 k.seq
  | _ => s.macCount p 39

/-- Every frame that waits is discarded. -/
def State.dropQueue (s : State) (p : Nat) : State :=
  let x := s.netPort p
  x.txq.foldl (fun s f => s.dropWaiting p f) (s.setNetPort p { x with txq := [] })

/-- The PTP engine sends a frame: the first of the levels, never held; it waits for the frame in transmission only. -/
def State.sendPtp (s : State) (p dst len : Nat) (out : Output) : State :=
  let len := max 64 len
  ((s.emit out).countFrame p false dst len false).occupy p (max (s.netPort p).free (50 * s.upNow3)) len

/-- The transmitters of both ports at a tick. -/
def State.netTick (s : State) : State :=
  let one := fun (s : State) (p : Nat) => s.txServe p (50 * s.time.up3) (s.netPort p).txq.length
  one (one s 0) 1

/-! ## Addresses (R101) -/

/-- The Ethernet address of an IPv4 multicast group (R101). -/
def groupMac (ip : Nat) : Nat := 0x01005E000000 + ip % 2 ^ 23

/-- An IPv4 multicast address. -/
def isGroup (ip : Nat) : Bool := ip / 2 ^ 28 == 14

/-! ## The receive buffer (R77) -/

/-- A frame for the destination of an order of R76 takes its place in the port's receive buffer of 256 KiB; `none`: it is full. -/
def State.rxPut (s : State) (p order len : Nat) : Option State :=
  let x := s.netPort p
  if len + (x.rxBuf.map (·.2)).sum ≤ 262144 then some (s.setNetPort p { x with rxBuf := x.rxBuf ++ [(order, len)] }) else none

/-- The oldest frame for a destination leaves the receive buffer as its engine takes it. -/
def State.rxTake (s : State) (p order : Nat) : State :=
  let x := s.netPort p
  match x.rxBuf.find? fun e => e.1 == order with
  | some e => s.setNetPort p { x with rxBuf := x.rxBuf.erase e }
  | none => s

/-! ## Sample formats (R87) -/

/-- Sample bytes of FMT, and the AAF format code it stands for. -/
def fmtBytes : Nat → Nat
  | 0 => 2 | 1 => 3 | _ => 4

def aafFormat : Nat → Nat
  | 0 => 4 | 1 => 3 | _ => 2

end Sys2Proof.Machine
end

