-- ==== Sys2Proof/Machine/Ptp.lean ====
section
/-!
DEFINITION. The PTP engines of the two ports (R49 to R65): admission of messages, the best-master decision, offsets and
steps, path delay, the device's own transmissions, local time and its acquisition, and the transmit stamp queue.
Offsets and delays are in 1/65536 ns, times on the wire in ns.
-/

namespace Sys2Proof.Machine

def State.ptpPort (s : State) (p : Nat) : PtpPort := Tab.get PtpPort.init s.ptp p

def State.setPtpPort (s : State) (p : Nat) (x : PtpPort) : State :=
  { s with ptp := Tab.set PtpPort.init s.ptp p x }

/-! ## The port and its identity (R49, R50) -/

/-- The clock identity a port's clock bears: in a boundary clock that of port A's image entry (R50). -/
def State.isBoundary (s : State) : Bool := s.rd F.PTP_CTRL_MODE [0] == 2 && s.rd F.PTP_CTRL_MODE [1] == 2

def State.ptpEntry (s : State) (p : Nat) : Nat := if s.isBoundary then 0 else p

def State.ptpId (s : State) (p : Nat) : Nat := Config.free .ptpIdentity [(s.ptpEntry p : Int)] % 2 ^ 64

/-- The port number: 1 and 2 in the boundary clock, 1 in a clock of one port. -/
def State.ptpPortNo (s : State) (p : Nat) : Nat := if s.isBoundary then p + 1 else 1

def State.portState (s : State) (p : Nat) : Nat := s.rd F.PTP_STAT_PORT_STATE [p]

/-- Enters a portState; a change raises STATE. -/
def State.setPortState (s : State) (p v : Nat) : State :=
  if s.portState p == v then s else (s.wr F.PTP_STAT_PORT_STATE v [p]).raise F.PTP_EVT_STATE [p]

/-- The engine takes part in the protocol: on, link up, initialised. -/
def State.ptpRuns (s : State) (p : Nat) : Bool := decide (p < 2) && decide (4 ≤ s.portState p)

/-- TIME_VALID by R51. -/
def State.ptpValidate (s : State) (p : Nat) : State :=
  let v := s.portState p == 9 && s.on F.PTP_STAT_PD_VALID [p] && !(s.ptpPort p).stepPend
  s.wr F.PTP_STAT_TIME_VALID (if v then 1 else 0) [p]

/-- Records an error of R64: PTP_ERRLOG and PTP_ERRTIME are overwritten, the counter counts. -/
def State.ptpErr (s : State) (p code msgType seq : Nat) (cnt : Field) : State :=
  let s := (s.wr F.PTP_ERRLOG_CODE code [p]).wr F.PTP_ERRLOG_MSGTYPE msgType [p]
  ((s.wr F.PTP_ERRLOG_SEQ seq [p]).wr F.PTP_ERRTIME_NS s.stamp [p]).count cnt [p]

/-- Code 1: what the port calls malformed (R64). -/
def ptpMalformed (m : PtpMsg) : Bool :=
  m.version != 2 || decide (1 < m.minorVersion) || (decide (4 ≤ m.msgType) && decide (m.msgType ≤ 7))
    || decide (14 ≤ m.msgType) || m.lengthBad || m.management || m.msgType == 13

/-- Code 2: the domain or sdoId is not the port's (R49, R64). -/
def State.ptpForeignDomain (s : State) (p : Nat) (m : PtpMsg) : Bool :=
  if s.rd F.PTP_CTRL_PROFILE [p] == 1 then m.domain != 0 || m.sdoId != 0x100
  else m.domain != s.rd F.PTP_CTRL_DOMAIN [p] || m.sdoId != 0

/-- A message leaves the receive queue of R63 when the engine takes it. -/
def State.ptpTake (s : State) (p : Nat) (m : PtpMsg) : State :=
  s.setPtpPort p { s.ptpPort p with rxq := (s.ptpPort p).rxq.erase m }

/-- The delay of the test unit on a port's ingress stamps in ns (R444). -/
def State.stampDelay (s : State) (p : Nat) : Nat := if p == 0 then s.rd F.TST_TSDLY_DLY_A else s.rd F.TST_TSDLY_DLY_B

/-- A delayed stamp counts. -/
def State.countStamp (s : State) (p : Nat) : State :=
  if s.stampDelay p == 0 then s else s.count F.TST_CNT_TSDLY_V

/-- The engine takes a message: errors 1 and 2 discard it, otherwise it is handled. -/
def State.ptpAdmit (s : State) (p : Nat) (m : PtpMsg) (k : State → State) : State :=
  if !s.ptpRuns p then s
  else
    let s := (s.ptpTake p m).countStamp p
    if ptpMalformed m then (s.ptpErr p 1 m.msgType m.seq F.PTP_CNT_MALFORMED_V).raise F.PTP_EVT_MALFORMED [p]
    else if s.ptpForeignDomain p m then (s.ptpErr p 2 m.msgType m.seq F.PTP_CNT_DOMAIN_V).raise F.PTP_EVT_DOMAIN [p]
    else k s

/-! ## Intervals (R49) -/

/-- Two to the power of a signed 4-bit logarithm, as seconds in thirds of a ns; the exponents of R49 are −4 and above. -/
def logSec3 (l : Int) : Nat := 187500000 * 2 ^ (l + 4).toNat

def State.syncSec3 (s : State) (p : Nat) : Nat := logSec3 (s.rdS F.PTP_CTRL_LOG_SYNC [p])
def State.annSec3 (s : State) (p : Nat) : Nat := logSec3 (s.rd F.PTP_CTRL_LOG_ANN [p])
def State.dreqSec3 (s : State) (p : Nat) : Nat := logSec3 (s.rdS F.PTP_CTRL_LOG_DREQ [p])

/-- An interval has passed since a time, if there is one. -/
def State.dueSince (s : State) (since3 : Option Nat) (sec3 : Nat) : Bool :=
  match since3 with
  | some t => s.elapsed t sec3
  | none => true

/-! ## The best master (R50, IEEE 1588-2019 9.3) -/

/-- The data set a decision compares, in the order of comparison. -/
def annKey (d : AnnounceData) : List Nat := [d.prio1, d.clockClass, d.accuracy, d.variance, d.prio2, d.gmId]

/-- Lexicographic order of equally long lists. -/
def lexLt : List Nat → List Nat → Bool
  | a :: as, b :: bs => if a < b then true else if a = b then lexLt as bs else false
  | _, _ => false

/-- What a comparison of two data sets of one grandmaster looks at beside its steps: sender, and the port that hears it. -/
def candKey (p : Nat) (f : Foreign) : List Nat := [f.data.steps, f.srcId, f.srcPort, p]

/-- Candidate `a` on port `pa` is better than `b` on `pb`, plainly or by topology: by the data set, and for one grandmaster by its
distance, sender and port. -/
def candBetter (pa : Nat) (a : Foreign) (pb : Nat) (b : Foreign) : Bool :=
  if a.data.gmId == b.data.gmId then lexLt (candKey pa a) (candKey pb b) else lexLt (annKey a.data) (annKey b.data)

/-- `e` is better than `r` by topology only: both come from one grandmaster and are equally far from it, or `r` is one step
farther and the receiver's identity `own` is the larger of receiver and sender (IEEE 1588-2019 9.3.4). -/
def byTopology (own : Nat) (e r : Foreign) : Bool :=
  e.data.gmId == r.data.gmId
    && (e.data.steps == r.data.steps || (r.data.steps == e.data.steps + 1 && decide (r.srcId < own)))

/-- Four Announce intervals: the window within which Announce messages qualify a foreign master. -/
def State.announceWindow3 (s : State) (p : Nat) : Nat := 4 * s.annSec3 p

/-- The qualified foreign masters of a port: one Announce suffices in 802.1AS, two within four intervals otherwise; one that has
fallen silent for as long qualifies no more. -/
def State.candidates (s : State) (p : Nat) : List Foreign :=
  (s.ptpPort p).foreign.filter fun f =>
    (s.rd F.PTP_CTRL_PROFILE [p] == 1 || decide (2 ≤ f.count)) && decide (s.time.up3 ≤ f.last3 + s.announceWindow3 p)

/-- The best of a list of candidates heard on port `p`. -/
def bestOf (p : Nat) : List Foreign → Option Foreign
  | [] => none
  | f :: t => match bestOf p t with
    | none => some f
    | some g => if candBetter p g p f then some g else some f

def State.erBest (s : State) (p : Nat) : Option Foreign := bestOf p (s.candidates p)

/-- A member of the data set that the image gives a port's clock: 1 priority1, 2 accuracy, 3 variance, 4 priority2, and the three
clock classes of R52, 5 CLASS_LOCK, 6 CLASS_HO, 7 CLASS_FREE. No image field holds them (log entry 57). -/
def State.imageSet (s : State) (p i : Nat) : Nat := Config.free .ptpDataSet [(s.ptpEntry p : Int), (i : Int)]

/-- The clockClass of R52 by the steward's state: LOCKED to a reference that is not this clock's own PTP and not the
crystal, HOLDOVER, or otherwise. -/
def State.clockClass (s : State) (p : Nat) (ownRef : Nat → Bool) : Nat :=
  let st := s.rd F.CLK_STAT_STATE
  s.imageSet p (if st == 2 && s.rd F.CLK_STAT_SEL != 5 && !ownRef (s.rd F.CLK_STAT_SEL) then 5 else if st == 3 then 6 else 7) % 256

/-- The references that are this port's own clock. -/
def State.ownRef (s : State) (p n : Nat) : Bool := if s.isBoundary then decide (n < 2) else n == p

/-- The device's own data set D0: priorities and the other members from the image, which no image field gives. -/
def State.ownData (s : State) (p : Nat) (ownRef : Nat → Bool) : AnnounceData :=
  { prio1 := s.imageSet p 1 % 256, clockClass := s.clockClass p ownRef
    accuracy := s.imageSet p 2 % 256, variance := s.imageSet p 3 % 65536
    prio2 := s.imageSet p 4 % 256, gmId := s.ptpId p, steps := 0, timeBase := 0, pathTrace := [] }

/-- The better of the two ports' best candidates, with its port. -/
def State.eBest (s : State) (p : Nat) : Option (Nat × Foreign) :=
  if s.isBoundary then
    match s.erBest 0, s.erBest 1 with
    | some a, some b => if candBetter 1 b 0 a then some (1, b) else some (0, a)
    | some a, none => some (0, a)
    | none, some b => some (1, b)
    | none, none => none
  else (s.erBest p).map fun f => (p, f)

/-- A port of a boundary clock whose other port hears the best master `e` and that hears `r` itself: PASSIVE where `e` is better
by topology only. In 802.1AS: where what the port would announce of `e` is not better than `r`. -/
def State.passiveBy (s : State) (p : Nat) (e r : Foreign) : Bool :=
  if s.rd F.PTP_CTRL_PROFILE [p] == 1 then
    r.data.gmId == e.data.gmId && !lexLt [e.data.steps + 1, s.ptpId p, s.ptpPortNo p] [r.data.steps, r.srcId, r.srcPort]
  else byTopology (s.ptpId p) e r

/-- The portState the state decision gives: 6 MASTER, 7 PASSIVE, 8 towards SLAVE; `none` where the port goes on as it is: nothing
is heard, or it listens and hears nothing itself. -/
def State.bmcaDecision (s : State) (p : Nat) : Option Nat :=
  let d0 := annKey (s.ownData p (s.ownRef p))
  let r := s.erBest p
  match s.eBest p with
  | none => none
  | some (q, e) =>
    if s.portState p == 4 && r.isNone then none
    else if decide ((s.ownData p (s.ownRef p)).clockClass < 128) then
      match r with
      | none => some 6
      | some r => if lexLt (annKey r.data) d0 then some 7 else some 6
    else if !lexLt (annKey e.data) d0 then some 6
    else if q == p then some 8
    else match r with
      | none => some 6
      | some r => if s.passiveBy p e r then some 7 else some 6

/-- A step of R58 is pending from here on; `agree`: the offset with which the agreement of STEP_POL 1 begins, if there is one. -/
def State.stepPending (s : State) (p msgType seq : Nat) (ofs : Option Int) : State :=
  let s := s.setPtpPort p { s.ptpPort p with stepPend := true, agree := ofs.map fun o => (o, o, s.time.up3) }
  ((s.ptpErr p 4 msgType seq F.PTP_CNT_STEP_V).raise F.PTP_EVT_STEP [p]).ptpValidate p

/-- The port follows `f`: its parent and grandmaster data. Another grandmaster, or in 802.1AS another time base, is
a change of the time base of R58, recorded with the Announce that carried it; other changes of the data raise GM_CHANGE only
(R64). -/
def State.followGm (s : State) (p : Nat) (f : Foreign) : State :=
  let x := s.ptpPort p
  let s := s.setPtpPort p { x with parent := some (f.srcId, f.srcPort), gm := some f.data }
  match x.gm with
  | none => s
  | some g =>
    if g == f.data then s
    else
      let s := s.raise F.PTP_EVT_GM_CHANGE [p]
      let baseChanged := g.gmId != f.data.gmId
        || (s.rd F.PTP_CTRL_PROFILE [p] == 1 && g.timeBase != f.data.timeBase)
      if baseChanged && s.time.timeSet && !x.stepPend then s.stepPending p 11 f.seq none else s

/-- Carries out the state decision on one port. -/
def State.bmcaPort (s : State) (p : Nat) : State :=
  if !s.ptpRuns p then s
  else match s.bmcaDecision p with
    | none => s
    | some 8 =>
      match s.erBest p with
      | none => s
      | some f =>
        let same := (s.ptpPort p).parent == some (f.srcId, f.srcPort)
        let s := if same then s else s.setPtpPort p { s.ptpPort p with pendSync := none, lastSync := none }
        let s := s.followGm p f
        let st := s.portState p
        let s := if same && (st == 8 || st == 9) then s else s.setPortState p 8
        s.ptpValidate p
    | some v =>
      ((s.setPtpPort p { s.ptpPort p with parent := none, pendSync := none }).setPortState p v).ptpValidate p

/-- The decision of a port's clock: in a boundary clock both ports decide (R50). -/
def State.bmca (s : State) (p : Nat) : State :=
  if s.isBoundary then (s.bmcaPort 0).bmcaPort 1 else s.bmcaPort p

/-! ## Announce (R50, R64) -/

/-- Error 3: an inconsistent Announce. -/
def State.announceBad (s : State) (p : Nat) (m : PtpMsg) (d : AnnounceData) : Bool :=
  let own := s.ptpId p
  decide (255 ≤ d.steps) || d.gmId == own || d.pathTrace.contains own
    || (m.srcId == own && m.srcPort == s.ptpPortNo p)

/-- A port's foreign masters with one more Announce of a sender. -/
def State.foreignAdd (s : State) (p : Nat) (m : PtpMsg) (d : AnnounceData) : List Foreign :=
  let old := (s.ptpPort p).foreign
  let isIt := fun f : Foreign => f.srcId == m.srcId && f.srcPort == m.srcPort
  let n := match old.find? isIt with
    | some f => if decide (s.time.up3 ≤ f.last3 + s.announceWindow3 p) then f.count + 1 else 1
    | none => 1
  { srcId := m.srcId, srcPort := m.srcPort, data := d, count := n, last3 := s.time.up3, seq := m.seq } :: old.filter (!isIt ·)

/-- ANNOUNCE. -/
def State.rxAnnounce (s : State) (p : Nat) (m : PtpMsg) : State :=
  s.ptpAdmit p m fun s =>
    match m.ann with
    | none => (s.ptpErr p 1 m.msgType m.seq F.PTP_CNT_MALFORMED_V).raise F.PTP_EVT_MALFORMED [p]
    | some d =>
      if s.announceBad p m d then
        let x := s.ptpPort p
        let s := s.setPtpPort p { x with foreign := x.foreign.filter fun f => !(f.srcId == m.srcId && f.srcPort == m.srcPort) }
        ((s.ptpErr p 3 m.msgType m.seq F.PTP_CNT_ANN_BAD_V).raise F.PTP_EVT_ANN_BAD [p]).bmca p
      else
        (s.setPtpPort p { s.ptpPort p with foreign := s.foreignAdd p m d }).bmca p

/-- The last Announce a port's receipt timeout counts from: its parent's, without a parent any sender's, and never before it
began to listen. -/
def State.announceHeard3 (s : State) (p : Nat) : Nat :=
  let x := s.ptpPort p
  let own := x.foreign.filter fun f => x.parent == none || x.parent == some (f.srcId, f.srcPort)
  (own.map (·.last3)).foldl max x.listen3

/-- ANNOUNCE_RECEIPT_TIMEOUT, three Announce intervals without one (R49): the parent is no candidate any more; a port that hears
none becomes MASTER. -/
def State.announceTimeout (s : State) (p : Nat) : State :=
  let st := s.portState p
  if s.ptpRuns p && (st == 4 || st == 7 || st == 8 || st == 9) && s.elapsed (s.announceHeard3 p) (3 * s.annSec3 p) then
    let x := s.ptpPort p
    let gone := fun f : Foreign => x.parent == none || x.parent == some (f.srcId, f.srcPort)
    let s := s.setPtpPort p { x with parent := none, pendSync := none, foreign := x.foreign.filter (!gone ·) }
    let s := s.bmca p
    if (s.bmcaDecision p).isNone then (s.setPortState p 6).ptpValidate p else s
  else s

/-! ## Offset from master (R51, R53, R58) -/

/-- The ingress stamp in 1/65536 ns: detection minus the fixed latency of R53, plus the delay of the test unit. -/
def State.ingress (s : State) (p t : Nat) : Int :=
  ((t + s.stampDelay p : Nat) : Int) * 65536 - ((if s.port10 p then s.rd F.PTP_CAL_IN10_VALUE [p] else s.rd F.PTP_CAL_IN25_VALUE [p] : Nat) : Int)

/-- The egress stamp in 1/65536 ns: launch plus the fixed latency. -/
def State.egress (s : State) (p t : Nat) : Int :=
  (t : Int) * 65536 + ((if s.port10 p then s.rd F.PTP_CAL_EG10_VALUE [p] else s.rd F.PTP_CAL_EG25_VALUE [p] : Nat) : Int)

/-- A stamp in whole ns, and the part of a ns behind it in 1/65536 ns. -/
def stampNs (t : Int) : Nat := (t / 65536).toNat
def stampFrac (t : Int) : Int := t % 65536

/-- Blocks of the wait-to-restore time as thirds of a ns. -/
def State.wtr3 (s : State) : Nat := s.rd F.CLK_QUAL_WTR * 300000000

/-- An offset while a step is pending: STEP_POL 0 waits for the old time base, STEP_POL 1 for agreement (R58). -/
def State.offsetPending (s : State) (p : Nat) (ofs : Int) : State :=
  let x := s.ptpPort p
  let lim : Int := (s.rd F.PTP_STEPLIM_LIMIT [p] : Int) * 65536
  let done := s.setPtpPort p { x with stepPend := false, agree := none, lastOfs := some ofs }
  if s.rd F.PTP_CTRL_STEP_POL [p] == 0 then
    if (ofs - x.lastOfs.getD ofs).natAbs ≤ lim.toNat then done else s
  else
    let anew := s.setPtpPort p { x with agree := some (ofs, ofs, s.time.up3) }
    match x.agree with
    | none => anew
    | some (lo, hi, since3) =>
      let lo := min lo ofs
      let hi := max hi ofs
      if hi - lo ≤ lim then
        if decide (since3 + s.wtr3 ≤ s.time.up3) then done else s.setPtpPort p { x with agree := some (lo, hi, since3) }
      else anew

/-- A newly computed offset: PTP_OFS, the phase of the port's reference, and the step rule of R58. -/
def State.newOffset (s : State) (p : Nat) (ofs : Int) (seq : Nat) : State :=
  let s := s.wrS F.PTP_OFS_OFS (clampInt (-2147483648) 2147483647 (roundDiv ofs 65536)) [p]
  let s := s.refPhase p (-(roundDiv (ofs * 1000000) 65536))
  let x := s.ptpPort p
  let lim : Int := (s.rd F.PTP_STEPLIM_LIMIT [p] : Int) * 65536
  if x.stepPend then (s.offsetPending p ofs).ptpValidate p
  else
    let jump := s.time.timeSet && (match x.lastOfs with
      | some o => decide (lim < ((ofs - o).natAbs : Int))
      | none => false)
    if jump then s.stepPending p 0 seq (some ofs)
    else s.setPtpPort p { x with lastOfs := some ofs }

/-- A completed Sync: the reference is active, a port towards SLAVE becomes SLAVE, and an offset is computed while a
mean path delay is held. -/
def State.syncDone (s : State) (p : Nat) (t1 t2 corr : Int) (seq : Nat) : State :=
  let s := s.setPtpPort p { s.ptpPort p with pendSync := none, lastSync := some (t1, t2, corr) }
  let s := s.setPortState p 9
  let s := if s.on F.PTP_STAT_PD_VALID [p] then
      s.newOffset p (t2 - t1 - corr - s.rdS F.PTP_ASYM_ASYM [p] - (s.ptpPort p).mpd) seq
    else s.refAlive p
  s.ptpValidate p

/-- The sender is the port's parent. -/
def State.fromParent (s : State) (p : Nat) (m : PtpMsg) : Bool :=
  (s.portState p == 8 || s.portState p == 9) && (s.ptpPort p).parent == some (m.srcId, m.srcPort)

/-- The pending Sync is discarded without its Follow_Up (error 5). -/
def State.fuMiss (s : State) (p : Nat) : State :=
  match (s.ptpPort p).pendSync with
  | some y =>
    let s := s.setPtpPort p { s.ptpPort p with pendSync := none }
    (s.ptpErr p 5 0 y.seq F.PTP_CNT_FU_MISSING_V).raise F.PTP_EVT_FU_MISSING [p]
  | none => s

/-- FU_MISSING: a Sync interval has passed without the Follow_Up. -/
def State.fuMissing (s : State) (p : Nat) : State :=
  match (s.ptpPort p).pendSync with
  | some y => if s.elapsed y.at3 (s.syncSec3 p) then s.fuMiss p else s
  | none => s

/-- PTP_SYNC. A Sync that comes while another waits for its Follow_Up ends that wait as missed (log entry 155). -/
def State.rxSync (s : State) (p : Nat) (m : PtpMsg) (t2 : Nat) : State :=
  s.ptpAdmit p m fun s =>
    if !s.fromParent p m then s
    else
      let s := s.fuMiss p
      if m.twoStep then
        s.setPtpPort p { s.ptpPort p with
          pendSync := some { seq := m.seq, at3 := s.time.up3, t2 := s.ingress p t2, corr := m.correction } }
      else s.syncDone p ((m.time : Int) * 65536) (s.ingress p t2) m.correction m.seq

/-- FOLLOW_UP: completes the pending Sync, or matches none (errors 6). -/
def State.rxFollowUp (s : State) (p : Nat) (m : PtpMsg) : State :=
  s.ptpAdmit p m fun s =>
    if !s.fromParent p m then s
    else match (s.ptpPort p).pendSync with
      | some y =>
        if y.seq == m.seq then s.syncDone p ((m.time : Int) * 65536) y.t2 (y.corr + m.correction) m.seq
        else s.ptpErr p 6 m.msgType m.seq F.PTP_CNT_FU_ORPHAN_V
      | none => s.ptpErr p 6 m.msgType m.seq F.PTP_CNT_FU_ORPHAN_V

/-! ## Path delay (R49, R64) -/

/-- Clears PD_VALID; where it was set, PD_LOST is raised. -/
def State.pdLost (s : State) (p : Nat) : State :=
  if s.on F.PTP_STAT_PD_VALID [p] then
    ((s.wr F.PTP_STAT_PD_VALID 0 [p]).raise F.PTP_EVT_PD_LOST [p]).ptpValidate p
  else s

/-- A computed mean path delay: error 8 discards it, otherwise it is held and reported. -/
def State.newDelay (s : State) (p : Nat) (d : Int) (msgType seq : Nat) : State :=
  if d < 0 || decide ((s.rd F.PTP_PDMAX_MAX [p] : Int) * 65536 < d) then
    s.ptpErr p 8 msgType seq F.PTP_CNT_PD_BAD_V
  else
    let s := s.setPtpPort p { s.ptpPort p with mpd := d, missRun := 0 }
    ((s.wr F.PTP_MPD_MPD d.toNat [p]).wr F.PTP_STAT_PD_VALID 1 [p]).ptpValidate p

/-- Peer delay is in use: set, or forced by 802.1AS. -/
def State.peerDelay (s : State) (p : Nat) : Bool :=
  s.rd F.PTP_CTRL_PROFILE [p] == 1 || s.rd F.PTP_CTRL_DELAY [p] == 1

/-- The exchange that a response addressed to this port belongs to. -/
def State.exchangeOf (s : State) (p : Nat) (m : PtpMsg) : Option PendingDelay :=
  if m.reqId == s.ptpId p && m.reqPort == s.ptpPortNo p then (s.ptpPort p).exchanges.find? fun y => y.seq == m.seq else none

/-- Replaces the exchange of a sequence number, or with `none` ends it. -/
def State.setExchange (s : State) (p seq : Nat) (y : Option PendingDelay) : State :=
  let x := s.ptpPort p
  s.setPtpPort p { x with exchanges := x.exchanges.filterMap fun z => if z.seq == seq then y else some z }

/-- An answer has come: the run of misses ends. -/
def State.answeredDelay (s : State) (p : Nat) : State := s.setPtpPort p { s.ptpPort p with missRun := 0 }

/-- DELAY_RESP: the answer to the port's own request. The responder copies the request's correctionField, in which the port's
delayAsymmetry stands with a minus sign. -/
def State.rxDelayResp (s : State) (p : Nat) (m : PtpMsg) : State :=
  s.ptpAdmit p m fun s =>
    match s.exchangeOf p m with
    | some y =>
      if !y.peer && !y.done && s.fromParent p m then
        let s := (s.setExchange p y.seq none).answeredDelay p
        match (s.ptpPort p).lastSync with
        | some (t1, t2, c) =>
          let d := (t2 - y.t1) + ((m.time : Int) * 65536 - t1) - (c + s.rdS F.PTP_ASYM_ASYM [p]) - m.correction
          s.newDelay p (roundDiv d 2) m.msgType m.seq
        | none => s
      else s
    | none => s

/-- More than one Pdelay_Resp to one request: error 9. The third such exchange in a row begins the hold of 300 s. -/
def State.multiResp (s : State) (p : Nat) (y : PendingDelay) (m : PtpMsg) : State :=
  let first := y.responses == 1
  let s := s.setExchange p y.seq (some { y with responses := y.responses + 1, done := true })
  let x := s.ptpPort p
  let s := s.setPtpPort p { x with multiRun := if first then x.multiRun + 1 else x.multiRun }
  let s := if first then s.ptpErr p 9 m.msgType m.seq F.PTP_CNT_MULTI_RESP_V else s
  if first && decide (3 ≤ (s.ptpPort p).multiRun) then
    (s.setPtpPort p { s.ptpPort p with pdHold := some s.upNow3, multiRun := 0 }).pdLost p
  else s

/-- PDELAY_RESP. The port's delayAsymmetry is added to its correctionField, against the minus in the request's. -/
def State.rxPdelayResp (s : State) (p : Nat) (m : PtpMsg) (t4 : Nat) : State :=
  s.ptpAdmit p m fun s =>
    match s.exchangeOf p m with
    | some y =>
      if y.peer then
        let corr := m.correction + s.rdS F.PTP_ASYM_ASYM [p]
        if y.responses != 0 then s.multiResp p y m
        else if m.twoStep then
          s.setExchange p y.seq (some { y with responses := 1, t2 := (m.time : Int) * 65536, t4 := s.ingress p t4, corr := corr })
        else
          let s := (s.setExchange p y.seq (some { y with responses := 1, done := true })).answeredDelay p
          s.newDelay p (roundDiv (s.ingress p t4 - y.t1 - corr) 2) m.msgType m.seq
      else s
    | none => s

/-- PDELAY_RESP_FOLLOW_UP: completes the exchange. -/
def State.rxPdelayRespFollowUp (s : State) (p : Nat) (m : PtpMsg) : State :=
  s.ptpAdmit p m fun s =>
    match s.exchangeOf p m with
    | some y =>
      if y.peer && !y.done && y.responses == 1 then
        let s := (s.setExchange p y.seq (some { y with done := true })).answeredDelay p
        let d := (y.t4 - y.t1) - ((m.time : Int) * 65536 - y.t2) - y.corr - m.correction
        s.newDelay p (roundDiv d 2) m.msgType m.seq
      else s
    | none => s

/-- An exchange ends without its answer (error 7); it also breaks a run of error 9. -/
def State.drespMiss (s : State) (p : Nat) (y : PendingDelay) : State :=
  let s := s.setExchange p y.seq none
  let x := s.ptpPort p
  let s := s.setPtpPort p { x with missRun := x.missRun + 1, multiRun := 0 }
  let s := s.ptpErr p 7 (if y.peer then 2 else 1) y.seq F.PTP_CNT_DRESP_MISSING_V
  if decide (16 ≤ (s.ptpPort p).missRun) then s.pdLost p else s

/-- DRESP_MISSING: the oldest exchange without its answer for 1 s. -/
def State.drespMissing (s : State) (p : Nat) : State :=
  match (s.ptpPort p).exchanges.reverse.find? fun y => !y.done && s.elapsed y.at3 3000000000 with
  | some y => s.drespMiss p y
  | none => s

/-- PDELAY_HOLD_END: the 300 s without requests end. -/
def State.pdelayHoldEnd (s : State) (p : Nat) : State :=
  match (s.ptpPort p).pdHold with
  | some t => if s.elapsed t 900000000000 then s.setPtpPort p { s.ptpPort p with pdHold := none } else s
  | none => s

/-! ## Requests of others, and own transmissions (R49, R52, R53) -/

/-- Sends a PTP message of `n` bytes: over UDP to the primary or the peer delay group, or in 802.1AS over Ethernet (R49). -/
def State.ptpSend (s : State) (p n : Nat) (peer : Bool) (out : Output) : State :=
  if s.rd F.PTP_CTRL_PROFILE [p] == 1 then s.sendPtp p 0x0180C200000E (14 + n + 4) out
  else s.sendPtp p (groupMac (if peer then 0xE000006B else 0xE0000181)) (14 + 28 + n + 4) out

/-- DELAY_REQ: a MASTER that uses request-response answers. -/
def State.rxDelayReq (s : State) (p : Nat) (m : PtpMsg) (t4 : Nat) : State :=
  s.ptpAdmit p m fun s =>
    if s.portState p == 6 && !s.peerDelay p then
      s.ptpSend p 54 false (.ptpDelayResp p m.seq (stampNs (s.ingress p t4)) m.srcId m.srcPort
        (m.correction - stampFrac (s.ingress p t4)) (s.rdS F.PTP_CTRL_LOG_DREQ [p]))
    else s

/-- PDELAY_REQ: answered two-step in any state of a running port that uses peer delay. -/
def State.rxPdelayReq (s : State) (p : Nat) (m : PtpMsg) (t2 t3 : Nat) : State :=
  s.ptpAdmit p m fun s =>
    if s.peerDelay p then
      (s.ptpSend p 54 true (.ptpPdelayResp p m.seq (stampNs (s.ingress p t2)) m.srcId m.srcPort (-(stampFrac (s.ingress p t2))))).ptpSend p 54 true
        (.ptpPdelayRespFollowUp p m.seq (stampNs (s.egress p t3)) m.srcId m.srcPort (m.correction + stampFrac (s.egress p t3)))
    else s

/-- SYNC_TRANSMIT: a MASTER sends a two-step Sync and its Follow_Up, a Sync interval after the last (log entry 156). -/
def State.txSync (s : State) (p t1 : Nat) : State :=
  let x := s.ptpPort p
  if s.ptpRuns p && s.portState p == 6 && s.dueSince x.sync3 (s.syncSec3 p) then
    let log := s.rdS F.PTP_CTRL_LOG_SYNC [p]
    let s := s.setPtpPort p { x with seqSync := (x.seqSync + 1) % 65536, sync3 := some s.time.up3 }
    (s.ptpSend p 44 false (.ptpSync p x.seqSync log)).ptpSend p (if s.rd F.PTP_CTRL_PROFILE [p] == 1 then 76 else 44) false
      (.ptpFollowUp p x.seqSync (stampNs (s.egress p t1)) (stampFrac (s.egress p t1)) log)
  else s

/-- What a MASTER announces: its own data as grandmaster, or the parent's behind one more step (R52). -/
def State.announceData (s : State) (p : Nat) : AnnounceData :=
  let other := 1 - p
  match if s.isBoundary && s.portState other == 9 then (s.ptpPort other).gm else none with
  | some g => { g with steps := g.steps + 1, pathTrace := g.pathTrace ++ [s.ptpId p] }
  | none => { s.ownData p (fun _ => false) with pathTrace := [s.ptpId p] }

/-- ANNOUNCE_TRANSMIT, an Announce interval after the last. -/
def State.txAnnounce (s : State) (p : Nat) : State :=
  let x := s.ptpPort p
  if s.ptpRuns p && s.portState p == 6 && s.dueSince x.ann3 (s.annSec3 p) then
    let d := s.announceData p
    let s := s.setPtpPort p { x with seqAnn := (x.seqAnn + 1) % 65536, ann3 := some s.time.up3 }
    s.ptpSend p (if s.rd F.PTP_CTRL_PROFILE [p] == 1 then 68 + 8 * d.pathTrace.length else 64) false
      (.ptpAnnounce p x.seqAnn d (s.rd F.PTP_CTRL_LOG_ANN [p] : Int))
  else s

/-- DELAY_REQ_TRANSMIT: a Delay_Req towards the parent, at a time of the engine's choice, or, an interval after the last, a
Pdelay_Req unless the hold of error 9 lasts (log entry 156). An exchange with one response ends a run of error 9. -/
def State.txDelayReq (s : State) (p t : Nat) : State :=
  let x := s.ptpPort p
  let peer := s.peerDelay p
  let may := s.ptpRuns p
    && (if peer then x.pdHold.isNone && s.dueSince x.req3 (s.dreqSec3 p) else s.portState p == 8 || s.portState p == 9)
  if may then
    let single := match x.exchanges with
      | y :: _ => y.peer && y.responses == 1
      | [] => false
    let corr := -(s.rdS F.PTP_ASYM_ASYM [p])
    let s := s.setPtpPort p { x with
      seqReq := (x.seqReq + 1) % 65536
      req3 := some s.time.up3
      multiRun := if single then 0 else x.multiRun
      exchanges := { seq := x.seqReq, at3 := s.upNow3, t1 := s.egress p t, peer := peer } :: x.exchanges.take 31 }
    s.ptpSend p (if peer then 54 else 44) peer (if peer then .ptpPdelayReq p x.seqReq corr else .ptpDelayReq p x.seqReq corr)
  else s

/-! ## Restart, link, and local time (R55 to R58, R65, R68) -/

/-- The engine's state machine starts again in INITIALIZING; the last accepted offset and the queues stay (R65).
MODE 0 is DISABLED, a link that is down FAULTY. -/
def State.ptpRestart (s : State) (p : Nat) : State :=
  let x := s.ptpPort p
  let s := s.setPtpPort p { PtpPort.init with
    lastOfs := x.lastOfs, seqSync := x.seqSync, seqAnn := x.seqAnn, seqReq := x.seqReq, rxq := x.rxq, txts := x.txts }
  let s := ((s.pdLost p).wr F.PTP_MPD_MPD 0 [p]).wr F.PTP_STAT_TIME_VALID 0 [p]
  s.setPortState p (if s.rd F.PTP_CTRL_MODE [p] == 0 then 3 else if s.on F.NP_STAT_LINK [p] then 1 else 2)

/-- The link falls: FAULTY at once, time invalid; a disabled port stays disabled (R68). -/
def State.ptpFaulty (s : State) (p : Nat) : State :=
  if s.rd F.PTP_CTRL_MODE [p] == 0 then s else (s.ptpRestart p).setPortState p 2

/-- At a tick an initialised port begins to listen. -/
def State.ptpTick (s : State) (p : Nat) : State :=
  if s.portState p == 1 then (s.setPtpPort p { s.ptpPort p with listen3 := s.time.up3 }).setPortState p 4 else s

/-- What the PTP engine of a port holds of local time moves with an acquisition by `d` ns: the last offset and the stamps of
exchanges under way. -/
def PtpPort.shift (x : PtpPort) (d : Int) : PtpPort :=
  let k := d * 65536
  { x with
    lastOfs := x.lastOfs.map (· + k), agree := x.agree.map fun a => (a.1 + k, a.2.1 + k, a.2.2)
    pendSync := x.pendSync.map fun y => { y with t2 := y.t2 + k }
    lastSync := x.lastSync.map fun y => (y.1, y.2.1 + k, y.2.2)
    exchanges := x.exchanges.map fun y => { y with t1 := y.t1 + k, t4 := y.t4 + k } }

/-- R55: the tick that first selects PTP reference `p` steps local time by a whole number of ns; `e` is reference minus local in
fs. ACQ is raised in the window of the selected port. The offsets, phases and stamps that stand against the old local time, of
both ports and of the ring, move with it, so that no step of R58 follows from the acquisition; every receive context
that runs sees a discontinuity (R56). Log entry 151. -/
def State.acquire (s : State) (p : Nat) (e : Int) : State :=
  if s.time.timeSet then s
  else
    let d := roundDiv e 1000000
    let s := { s with time := { s.time with
      local3 := ((s.time.local3 : Int) + 3 * d).toNat, timeSet := true
      acq := if s.time.started then s.time.acq + d else s.time.acq } }
    let s := { s with
      ring := { s.ring with refOfs := s.ring.refOfs.map (· - d * 65536) }
      str := if s.time.started then
          { s.str with rx := s.str.rx.map fun c => (c.1, c.2.map fun i => { i with jumped := i.expected.isSome }) }
        else s.str }
    let shift := fun (s : State) (q : Nat) => s.setPtpPort q ((s.ptpPort q).shift d)
    let phase := fun (s : State) (n : Nat) => s.setRef n { s.ref n with phase := (s.ref n).phase.map (· - d * 1000000) }
    ([0, 1, 4].foldl phase (shift (shift s 0) 1)).raise F.PTP_EVT_ACQ [p]

/-- PTP_REACQ.GO: clears TIME_SET and ends a pending step (R57, R58). -/
def State.reacq (s : State) : State :=
  let s := { s with time := { s.time with timeSet := false } }
  let clear := fun (s : State) (q : Nat) =>
    let x := s.ptpPort q
    if x.stepPend then (s.setPtpPort q { x with stepPend := false, lastOfs := none }).ptpValidate q else s
  clear (clear s 0) 1

/-- A read of PTP_TIME_NS takes the snapshot: the ns now, the seconds latched, in both windows (R59). -/
def State.latchTime (s : State) : State :=
  let sec := s.now3 / 3 / 10 ^ 9
  let one := fun (s : State) (p : Nat) => (s.wr F.PTP_TIME_SL_V sec [p]).wr F.PTP_TIME_SH_V (sec / 2 ^ 32) [p]
  one (one s 0) 1

/-! ## The transmit stamp queue (R60 to R62) -/

/-- A stamp is due: the queue keeps it, or drops it when all 16 entries are full (R62). -/
def State.txtsPush (s : State) (p ident stamp : Nat) : State :=
  let x := s.ptpPort p
  if x.txts.length < 16 then s.setPtpPort p { x with txts := x.txts ++ [(ident % 65536, stamp % 2 ^ 32)] }
  else (s.raise F.PTP_EVT_TXTS_OVF [p]).count F.PTP_CNT_TXTS_DROP_V [p]

/-- PTP_TXTS_POP.POP removes the head entry; an empty queue stays (R61). -/
def State.txtsDrop (s : State) (p : Nat) : State :=
  let x := s.ptpPort p
  s.setPtpPort p { x with txts := x.txts.tail }

/-- A PTP frame reaches the engine's receive queue of 32 messages, or is dropped (R63). -/
def State.ptpEnqueue (s : State) (p : Nat) (m : PtpMsg) : State :=
  if !s.ptpRuns p then s
  else
    let x := s.ptpPort p
    if x.rxq.length < 32 then s.setPtpPort p { x with rxq := x.rxq ++ [m] }
    else (s.ptpErr p 10 m.msgType m.seq F.PTP_CNT_RXQ_DROP_V).raise F.PTP_EVT_RXQ_FULL [p]

end Sys2Proof.Machine
end

