-- ==== Sys2Proof/Machine/NetPort.lean ====
section
/-!
DEFINITION. The network ports: link (R68), MAC counters (R84, R85), the host transmit path (R72 to R74, R398), the
hardware responders (R83) and flow control (R80).
-/

namespace Sys2Proof.Machine

/-! ## Host frame queues (R72, R73, R398) -/

/-- The address of entry `k` of a ring. -/
def State.ringEntry (s : State) (p r k : Nat) : Nat :=
  s.rd F.NP_HRr_CFG_ADDR_HI [p, r] * 2 ^ 32 + s.rd F.NP_HRr_BASE_ADDR [p, r] * 16 + 16 * k

def State.ringSize (s : State) (p r : Nat) : Nat := 2 ^ s.rd F.NP_HRr_CFG_SIZE_LOG2 [p, r]

def State.ringHead (s : State) (p r : Nat) : Nat := s.rd F.NP_HRr_HEAD_HEAD [p, r]

def State.ringTail (s : State) (p r : Nat) : Nat := s.rd F.NP_HRr_TAIL_TAIL [p, r]

/-- HEAD moves on by one entry. -/
def State.ringAdvance (s : State) (p r : Nat) : State :=
  s.wr F.NP_HRr_HEAD_HEAD ((s.ringHead p r + 1) % s.ringSize p r) [p, r]

/-- The frame-queue engine of a port is master 12 or 13 (R388). -/
def queueMaster (p : Nat) : Nat := 12 + p

/-- An engine read for a frame queue; a bus error is recorded and ends the job (R396, R398). -/
def State.queueRead (s : State) (p addr n : Nat) : Except State (List Byte) :=
  match s.memRead addr n with
  | .ok bs => .ok bs
  | .error c => .error (s.busError c.code (queueMaster p) false 0 addr)

/-- An engine write for a frame queue. -/
def State.queueWrite (s : State) (p addr : Nat) (bs : List Byte) : State :=
  match s.memWrite addr bs with
  | .ok t => t
  | .error c => s.busError c.code (queueMaster p) true 0 addr

/-- Word `i` of a descriptor. -/
def descWord (d : List Byte) (i : Nat) : Nat := ofLe ((d.drop (4 * i)).take 4)

/-- Writes word 3 of a transmit descriptor back with OWN 0 and a status, advances HEAD and raises TX_DONE. -/
def State.txComplete (s : State) (p q desc word3 status : Nat) : State :=
  let w := word3 % 2 ^ 31 / 2 ^ 28 * 2 ^ 28 + status * 2 ^ 24 + word3 % 2 ^ 24
  let s := (s.queueWrite p (desc + 12) (leBytes 4 w)).ringAdvance p q
  s.wr F.NP_HQEVT_TX_DONE (s.rd F.NP_HQEVT_TX_DONE [p] ||| 2 ^ q) [p]

/-- How many IEEE 802.1Q tags stand directly after the source address: at most 2, 0x88A8 only outside (R69). -/
def tagCount (bs : List Byte) : Nat :=
  let t := fun i => ofBe ((bs.drop i).take 2)
  if t 12 == 0x8100 || t 12 == 0x88A8 then (if t 16 == 0x8100 then 2 else 1) else 0

/-- The tag that a queue or context inserts directly after the source address (R74). -/
def insertTag (bs : List Byte) (pcp vid : Nat) : List Byte :=
  bs.take 12 ++ beBytes 2 0x8100 ++ beBytes 2 (pcp * 8192 + vid) ++ bs.drop 12

/-- What R72 makes of a host frame: a status where a step fails, or the frame without FCS and whether it was padded. -/
def State.buildFrame (s : State) (p q : Nat) (bs : List Byte) : Except Nat (List Byte × Bool) :=
  if bs.length < 1 ∨ 9596 < bs.length then .error 2
  else
    let ins := s.on F.NP_HQ_VLANq_INS [p, q]
    if ins && decide (2 ≤ tagCount bs) then .error 3
    else
      let bs := if ins then insertTag bs (s.rd F.NP_HQ_VLANq_PCP [p, q]) (s.rd F.NP_HQ_VLANq_VID [p, q]) else bs
      let pad := bs.length < 60
      let bs := bs ++ List.replicate (60 - bs.length) 0
      if s.lengthLimit p (tagCount bs) < bs.length + 4 then .error 1 else .ok (bs, pad)

/-- HOST_TRANSMIT: the device takes the next owned descriptor of an enabled queue and builds its frame, or completes
it with the status of the first failing step. -/
def State.hostTransmit (s : State) (p q : Nat) : State :=
  let flying := Tab.get [] (s.netPort p).fly q
  let k := (s.ringHead p q + flying.length) % s.ringSize p q
  if p < 2 ∧ q < 4 ∧ s.on F.NP_HQ_VLANq_TX_EN [p, q] ∧ k ≠ s.ringTail p q then
    let desc := s.ringEntry p q k
    match s.queueRead p desc 16 with
    | .error t => t
    | .ok d =>
      let w3 := descWord d 3
      if w3 / 2 ^ 31 == 0 then s
      else
        let len := descWord d 2 % 65536
        let buf := descWord d 1 % 16 * 2 ^ 32 + descWord d 0
        if len < 1 ∨ 9596 < len then (s.raise F.NP_EVT_TX_REFUSED [p]).txComplete p q desc w3 2
        else match s.queueRead p buf len with
        | .error t => t
        | .ok bs =>
          if !s.linkUp p then (s.macCount p 39).txComplete p q desc w3 4
          else match s.buildFrame p q bs with
          | .error st =>
            let s := s.raise F.NP_EVT_TX_REFUSED [p]
            (if st == 1 then s.macCount p 38 else s).txComplete p q desc w3 st
          | .ok (frame, pad) =>
            let s := if pad then s.macCount p 37 else s
            let x := s.netPort p
            let f : TxFrame := { desc := desc, ident := descWord d 2 / 65536, stampWanted := w3 / 2 ^ 30 % 2 == 1,
                                 bytes := frame, tags := tagCount frame }
            s.setNetPort p { x with fly := Tab.set [] x.fly q (flying ++ [f]) }
  else s

/-- The priority of a host frame: its outer tag's, 0 without a tag. -/
def TxFrame.prio (f : TxFrame) : Nat := if f.tags == 0 then 0 else ofBe ((f.bytes.drop 14).take 2) / 8192

/-- The host queue whose turn it is: of those with a frame that flow control leaves, the next after the one served last (R78). -/
def State.hostTurn (s : State) (p : Nat) : Option Nat :=
  let x := s.netPort p
  ([1, 2, 3, 4].map fun k => (x.turn + k) % 4).find? fun q =>
    match Tab.get [] x.fly q with
    | [] => false
    | f :: _ => !s.hostHeld p f.prio

/-- When a host frame may start: the medium is free now, or within the present block, and no frame of a higher level may start by
then (R78). -/
def State.hostSlot (s : State) (p : Nat) : Option Nat :=
  let start := max (s.netPort p).free (50 * s.upNow3)
  let first := match s.txNext p with
    | some (t, _) => decide (t ≤ start)
    | none => false
  if first || decide (50 * (s.time.up3 + s.block3) ≤ start) then none else some start

/-- TX_DONE: it is the turn of queue `q`, and its oldest frame reaches the medium; its stamp point passes at `launch`. -/
def State.txDone (s : State) (p q launch : Nat) : State :=
  let s := s.serve p
  let x := s.netPort p
  match Tab.get [] x.fly q, s.hostSlot p with
  | f :: rest, some start =>
    if s.hostTurn p == some q then
      let s := (s.setNetPort p { x with fly := Tab.set [] x.fly q rest, turn := q }).occupy p start (f.bytes.length + 4)
      let s := s.countFrame p false (ofBe (f.bytes.take 6)) (f.bytes.length + 4) (f.tags != 0)
      let s := s.emit (.frame p f.bytes)
      let s := if f.stampWanted then s.txtsPush p f.ident ((s.egress p launch) / 65536).toNat else s
      let w3 := match s.memRead (f.desc + 12) 4 with
        | .ok bs => ofLe bs
        | .error _ => 0
      s.txComplete p q f.desc w3 0
    else s
  | _, _ => s

/-- Completes every frame in flight of a queue with a status. -/
def State.dropFlying (s : State) (p q status : Nat) : List TxFrame → State
  | [] => s
  | f :: rest =>
    let w3 := match s.memRead (f.desc + 12) 4 with
      | .ok bs => ofLe bs
      | .error _ => 0
    ((s.macCount p 39).txComplete p q f.desc w3 status).dropFlying p q status rest

/-- The frames in flight of queue `q` end with a status. -/
def State.endFlying (s : State) (p status q : Nat) : State :=
  let x := s.netPort p
  let l := Tab.get [] x.fly q
  (s.setNetPort p { x with fly := Tab.set [] x.fly q [] }).dropFlying p q status l

/-- FLUSHED into every owned descriptor from HEAD on, `n` entries at most. -/
def State.flushRing (s : State) (p q : Nat) : Nat → Nat → State
  | 0, _ => s
  | n + 1, k =>
    if k == s.ringTail p q then s
    else
      let desc := s.ringEntry p q k
      match s.memRead (desc + 12) 4 with
      | .error _ => s
      | .ok bs =>
        let w := ofLe bs
        let s := if w / 2 ^ 31 == 1 then
            s.queueWrite p (desc + 12) (leBytes 4 (w % 2 ^ 31 / 2 ^ 28 * 2 ^ 28 + 5 * 2 ^ 24 + w % 2 ^ 24))
          else s
        s.flushRing p q n ((k + 1) % s.ringSize p q)

/-- TX_EN was cleared: every owned descriptor takes FLUSHED, and HEAD becomes TAIL (R73, R398). -/
def State.flushQueue (s : State) (p q : Nat) : State :=
  let x := s.netPort p
  let s := s.setNetPort p { x with fly := Tab.set [] x.fly q [] }
  let s := s.flushRing p q (s.ringSize p q) (s.ringHead p q)
  s.wr F.NP_HRr_HEAD_HEAD (s.ringTail p q) [p, q]

/-- A frame for a host receive queue: written to the next owned descriptor's buffer, or dropped (R77, R398). -/
def State.hostReceive (s : State) (p q : Nat) (bs : List Byte) (stripped : Option VlanTag) (stamp : Nat) : State :=
  let r := q + 4
  let drop := fun s : State => (s.macCount p 20).raise F.NP_EVT_RX_NOBUF [p]
  let k := s.ringHead p r
  if k == s.ringTail p r then drop s
  else
    let desc := s.ringEntry p r k
    match s.queueRead p desc 16 with
    | .error t => drop t
    | .ok d =>
      if descWord d 3 / 2 ^ 31 == 0 || decide (descWord d 1 / 65536 < bs.length) then drop s
      else
        let buf := descWord d 1 % 16 * 2 ^ 32 + descWord d 0
        match s.memWrite buf bs with
        | .error c => drop (s.busError c.code (queueMaster p) true 0 buf)
        | .ok s =>
          let tag := match stripped with
            | some t => 2 ^ 30 + t.pcp * 2 ^ 27 + t.vid * 2 ^ 15
            | none => 0
          let s := s.queueWrite p (desc + 8) (leBytes 4 stamp ++ leBytes 4 (tag + bs.length))
          let s := s.ringAdvance p r
          s.wr F.NP_HQEVT_RX_DONE (s.rd F.NP_HQEVT_RX_DONE [p] ||| 2 ^ q) [p]

/-! ## The link (R68) -/

/-- The claiming unit of a pair answers for the shared address RED_VIP (R353). -/
def State.answersVip (s : State) : Bool := s.on F.RED_CFG_VIP_EN && s.on F.RED_STAT_CLAIM_OUT

/-- LINK_UP. The unit that answers for the shared address announces it here too (DEDUCED, log entry 180). -/
def State.linkRises (s : State) (p : Nat) : State :=
  if p < 2 ∧ s.on F.NP_CFG_EN [p] ∧ !s.linkUp p then
    let s := ((s.wr F.NP_STAT_LINK 1 [p]).wr F.NP_STAT_BLOCK_LOCK 1 [p]).raise F.NP_EVT_LINK_UP [p]
    let shared := if s.answersVip then 3 else 0
    (s.setNetPort p { s.netPort p with gratuitous := 3, grat3 := none, vip := shared, vip3 := none }).ptpRestart p
  else s

/-- LINK_DOWN: frames due are discarded, those of the host with LINK_DOWN, and the PTP engine enters FAULTY at once. -/
def State.linkFalls (s : State) (p : Nat) : State :=
  if p < 2 ∧ s.linkUp p then
    let s := ((s.wr F.NP_STAT_LINK 0 [p]).wr F.NP_STAT_BLOCK_LOCK 0 [p]).raise F.NP_EVT_LINK_DOWN [p]
    let s := (List.range 4).foldl (fun s q => s.endFlying p 4 q) s
    (s.dropQueue p).ptpFaulty p
  else s

/-! ## Flow control (R80) -/

/-- The answer to a PAUSE frame or a priority flow-control frame: a pause of `quanta` times 512 bit times, until PAUSE_EXPIRY.
Priority 8 stands for a PAUSE of all. -/
def State.flowControl (s : State) (p : Nat) (prio quanta : Nat) : State :=
  let mode := s.rd F.NP_CFG_FC_MODE [p]
  let pfc := s.on F.NP_CFG_PFC [p]
  let applies := (mode == 1 || mode == 2) && (if prio == 8 then !pfc else pfc && s.rd F.NP_FC_PRIO_PRIO [p] / 2 ^ prio % 2 == 1)
  if applies then
    let x := s.netPort p
    let end3 := s.upNow3 + (quanta * 512 * (if s.port10 p then 15 else 6) + 49) / 50
    let now := Tab.put x.paused prio (if quanta == 0 then none else some end3)
    (s.setNetPort p { x with paused := now }).wr F.NP_STAT_FC_HELD (if now.isEmpty then 0 else 1) [p]
  else s

/-- PAUSE_EXPIRY: the requested time of a priority ends, and what it held goes on. -/
def State.pauseEnds (s : State) (p prio : Nat) : State :=
  let x := s.netPort p
  match x.paused.lookup prio with
  | none => s
  | some end3 =>
    if s.elapsed end3 0 then
      let now := Tab.put x.paused prio none
      ((s.setNetPort p { x with paused := now }).wr F.NP_STAT_FC_HELD (if now.isEmpty then 0 else 1) [p]).serve p
    else s

/-! ## Responders (R83) -/

/-- A frame of the responders or of the session engine: level 4 of R78, untagged, at priority 0 (log entry 157). Of `dst` only its
kind counts: 0 stands for the address that the answered frame came from. -/
def State.reply (s : State) (p dst len : Nat) (out : Output) : State := s.sendFrame p 3 0 dst len false out

/-- The responders of a port run only in RUN and QUIET, on a link that is up. -/
def State.responder (s : State) (p : Nat) (en : Field) : Bool := decide (p < 2) && s.awake && s.linkUp p && s.on en [p]

/-- Learns or refreshes an ARP cache entry: 64 entries, the least recently used is replaced. -/
def State.arpLearn (s : State) (p ip mac : Nat) : State :=
  let x := s.netPort p
  let e : ArpEntry := { ip := ip, mac := mac, learned3 := s.time.up3 }
  s.setNetPort p { x with
    arp := (e :: x.arp.filter fun o => o.ip != ip).take 64
    arpPend := Tab.put x.arpPend ip none }

/-- Another hardware address claims the port's IPv4 address. -/
def State.arpConflict (s : State) (p : Nat) (k : ArpPkt) : State :=
  s.raiseIf (k.senderIp == s.rd F.NP_IPV4_V [p] && k.senderMac != s.macAddr p) F.NP_EVT_ADDR_CONFLICT [p]

/-- ARP_REQUEST: answered and learned when it asks for NP_IPV4. -/
def State.rxArpRequest (s : State) (p : Nat) (k : ArpPkt) : State :=
  if s.responder p F.NP_RESP_ARP_EN then
    let s := s.arpConflict p k
    if k.targetIp == s.rd F.NP_IPV4_V [p] || (s.answersVip && k.targetIp == s.rd F.RED_VIP_ADDR) then
      (s.arpLearn p k.senderIp k.senderMac).reply p k.senderMac 64 (.arpReply p k.targetIp k.senderMac k.senderIp)
    else s
  else s

/-- ARP_REPLY: learned; an address that was being requested is resolved. -/
def State.rxArpReply (s : State) (p : Nat) (k : ArpPkt) : State :=
  if s.responder p F.NP_RESP_ARP_EN then (s.arpConflict p k).arpLearn p k.senderIp k.senderMac else s

/-- An announcement of the port's own address that is due goes out. -/
def State.announceOwn (s : State) (p : Nat) : State :=
  let x := s.netPort p
  if 0 < x.gratuitous ∧ s.dueSince x.grat3 3000000000 then
    (s.setNetPort p { x with gratuitous := x.gratuitous - 1, grat3 := some s.upNow3 }).reply p (2 ^ 48 - 1) 64
      (.arpAnnouncement p (s.rd F.NP_IPV4_V [p]))
  else s

/-- An announcement of the shared address that is due goes out (R353). -/
def State.announceVip (s : State) (p : Nat) : State :=
  let x := s.netPort p
  if s.answersVip ∧ 0 < x.vip ∧ s.dueSince x.vip3 3000000000 then
    (s.setNetPort p { x with vip := x.vip - 1, vip3 := some s.upNow3 }).reply p (2 ^ 48 - 1) 64
      (.arpAnnouncement p (s.rd F.RED_VIP_ADDR))
  else s

/-- GRATUITOUS_ANNOUNCEMENT: one of the three after a link-up, and of the three after a claim, each 1 s apart. -/
def State.announceArp (s : State) (p : Nat) : State :=
  if s.responder p F.NP_RESP_ARP_EN then (s.announceOwn p).announceVip p else s

/-- Requests a destination's address for the `n`th time. -/
def State.arpAsk (s : State) (p ip n : Nat) : State :=
  let x := s.netPort p
  (s.setNetPort p { x with arpPend := Tab.put x.arpPend ip (some (n, s.upNow3)) }).reply p (2 ^ 48 - 1) 64 (.arpRequest p ip)

/-- ARP_AGE_OUT: an entry ends after 300 s. -/
def State.arpAge (s : State) (p ip : Nat) : State :=
  let x := s.netPort p
  s.setNetPort p { x with arp := x.arp.filter fun e => !(e.ip == ip && s.elapsed e.learned3 900000000000) }

/-- ARP_RETRY: an unresolved destination is requested again 1 s after the last request; when 3 have gone unanswered,
ARP_UNRESOLVED is raised. -/
def State.arpRetry (s : State) (p ip : Nat) : State :=
  match (s.netPort p).arpPend.lookup ip with
  | none => s
  | some (n, at3) =>
    if s.responder p F.NP_RESP_ARP_EN && s.elapsed at3 3000000000 then
      (s.arpAsk p ip (n + 1)).raiseIf (n == 3) F.NP_EVT_ARP_UNRESOLVED [p]
    else s

/-- The next hop of a unicast destination: itself inside the subnet, the gateway outside. -/
def State.nextHop (s : State) (p ip : Nat) : Nat :=
  let m := s.rd F.NP_IPMASK_V [p]
  if ip &&& m == s.rd F.NP_IPV4_V [p] &&& m then ip else s.rd F.NP_GATEWAY_V [p]

/-- Resolves a destination for a frame to send: its address, used just now, or a discarded frame and, while the ARP responder
works, a request. -/
def State.resolve (s : State) (p ip : Nat) : State × Option Nat :=
  let hop := s.nextHop p ip
  let x := s.netPort p
  match x.arp.find? fun e => e.ip == hop with
  | some e => (s.setNetPort p { x with arp := e :: x.arp.filter fun o => o.ip != hop }, some e.mac)
  | none =>
    let s := s.macCount p 39
    if s.responder p F.NP_RESP_ARP_EN && ((s.netPort p).arpPend.lookup hop).isNone then (s.arpAsk p hop 1, none) else (s, none)

/-- ICMP_ECHO: answered up to ICMP_RATE a second, otherwise dropped and counted. -/
def State.rxEcho (s : State) (p srcIp ident seq : Nat) (data : List Byte) : State :=
  if s.responder p F.NP_RESP_ICMP_EN then
    let x := s.netPort p
    let recent := x.echoes3.filter fun t => decide (s.time.up3 < t + 3000000000)
    if recent.length < s.rd F.NP_RESP_ICMP_RATE [p] then
      (s.setNetPort p { x with echoes3 := s.time.up3 :: recent }).reply p 0 (14 + 28 + data.length + 4)
        (.icmpEchoReply p srcIp ident seq data)
    else (s.setNetPort p { x with echoes3 := recent }).macCount p 23
  else s

/-- IGMP_QUERY: a report is due after a random delay within the maximum response time. -/
def State.rxIgmpQuery (s : State) (p : Nat) : State :=
  if s.responder p F.NP_RESP_IGMP_EN then s.setNetPort p { s.netPort p with queryPending := true } else s

end Sys2Proof.Machine
end

