-- ==== Sys2Proof/Machine/Audio.lean ====
section
/-!
DEFINITION. Arithmetic on samples and gains: Q1.23 samples, Q4.20 gains, dB64 (R7 to R9), ramps (R228), biquads (R189),
and the delay-tap crossfade (R232).
-/

namespace Sys2Proof.Machine

/-! ## Ramps (R228) -/

/-- Unity in Q4.20. -/
def unity : Int := 1048576

/-- A gain that does not move. -/
def Ramp.still (g : Int) : Ramp := { g0 := g, g1 := g }

/-- The value `j` samples after the ramp's present place. -/
def Ramp.at (r : Ramp) (j : Nat) : Int :=
  let k := r.k + j
  if r.n ≤ k then r.g1 else roundDiv (r.g0 * (r.n : Int) + (r.g1 - r.g0) * (k : Int)) r.n

/-- The gain in effect now. -/
def Ramp.cur (r : Ramp) : Int := r.at 0

/-- A ramp from the present gain to a new target over `n` samples (R23). -/
def Ramp.to (r : Ramp) (g : Int) (n : Nat) : Ramp := { g0 := r.cur, g1 := g, n := n, k := 0 }

/-- The gains of the 32 samples of a block. -/
def Ramp.block (r : Ramp) : List Int := (List.range 32).map fun j => r.at (j + 1)

/-- A block has passed; the place stops one block behind the end. -/
def Ramp.step (r : Ramp) : Ramp := { r with k := min (r.k + 32) (r.n + 32) }

/-- The ramp still moves. -/
def Ramp.moving (r : Ramp) : Bool := decide (r.k < r.n)

/-- The samples of the ramp from the start of the block on whose samples `step` has counted already; 0 once it is over. -/
def Ramp.rest (r : Ramp) : Nat := if r.n = 0 then 0 else r.n + 32 - r.k

/-- The samples of a ramp time in ms. -/
def State.rampSamples (s : State) (ms : Nat) : Nat := ms * s.rateHz / 1000

/-- A sample times Q4.20 gains, rounded to Q1.23 without saturation. -/
def scale (x g : Int) : Int := roundDiv (x * g) 1048576

/-- Zeros of a block. -/
def zeros32 : List Int := List.replicate 32 0

/-- Sum of two blocks. -/
def addBlock (a b : List Int) : List Int := List.zipWith (· + ·) a b

/-! ## dB64 (R9)

A dB64 code v stands for v/64 dB; 0x8000 is mute. Its gain in Q4.20 is round(2^20 · 10^(v/1280)), found exactly: the
nearest code g satisfies (2g − 1)^1280 ≤ (2^21)^1280 · 10^v < (2g + 1)^1280. -/

/-- (2g − 1) / 2^21 is at most 10^(v/1280): powers of 1280 are compared as naturals. -/
def dbAtLeast (v : Int) (g : Nat) : Bool :=
  let l := (2 * g - 1) ^ 1280
  let r := 2 ^ (21 * 1280)
  if 0 ≤ v then decide (l ≤ r * 10 ^ v.toNat) else decide (l * 10 ^ (-v).toNat ≤ r)

/-- The largest code with the property above, by bisection on 24 bits. -/
def dbSearch (v : Int) : Nat → Nat → Nat
  | 0, g => g
  | b + 1, g => dbSearch v b (if dbAtLeast v (g + 2 ^ b) then g + 2 ^ b else g)

/-- The Q4.20 gain of a 16-bit dB64 code, saturating at the largest code (R9). -/
def db64Gain (code : Nat) : Int :=
  if code % 65536 == 0x8000 then 0
  else
    let v := toSigned 16 code
    if v == 0 then unity else if 1542 ≤ v then 16777215 else (dbSearch v 24 0 : Nat)

/-! ## Biquads (R189, R261) -/

/-- One setting of a section on one sample: its output, and whether it saturates. `none` passes the input. The
coefficients are b0, b1, b2, a1, a2 in Q2.22; the accumulator has 56 bits. -/
def bqOne (set : Option (List Int)) (h : BqHist) (x : Int) : Int × Bool :=
  match set with
  | none => (x, false)
  | some c =>
    let sum := c.getD 0 0 * x + c.getD 1 0 * h.x1 + c.getD 2 0 * h.x2 - c.getD 3 0 * h.y1 - c.getD 4 0 * h.y2
    let y := roundDiv (clampInt (-(2 ^ 55)) (2 ^ 55 - 1) sum) 4194304
    (satQ23 y, decide (satQ23 y ≠ y))

/-- A section at sample `j` of a block: `old` is the setting that it leaves in this block. -/
def bqSample (set : Option (List Int)) (old : Option (Option (List Int))) (j : Nat) (h : BqHist) (x : Int) :
    Int × BqHist × Bool :=
  let (y, sat) := bqOne set h x
  let h' : BqHist := { x1 := x, x2 := h.x1, y1 := y, y2 := h.y1 }
  match old with
  | none => (y, h', sat)
  | some o =>
    let (z, satOld) := bqOne o h x
    (roundDiv ((31 - (j : Int)) * z + ((j : Int) + 1) * y) 32, h', sat || satOld)

/-- A section over the samples of a block from sample `j` on: outputs, history, saturated samples. -/
def bqSection (set : Option (List Int)) (old : Option (Option (List Int))) :
    Nat → BqHist → List Int → List Int × BqHist × Nat
  | _, h, [] => ([], h, 0)
  | j, h, x :: xs =>
    let (y, h', sat) := bqSample set old j h x
    let (ys, h'', n) := bqSection set old (j + 1) h' xs
    (y :: ys, h'', n + if sat then 1 else 0)

/-- Sections in their order from section `k` on. -/
def bqSections (olds : Tab (Option (List Int))) :
    List (Option (List Int)) → Nat → Tab BqHist → List Int → List Int × Tab BqHist × Nat
  | [], _, hs, xs => (xs, hs, 0)
  | set :: sets, k, hs, xs =>
    let (ys, h, n) := bqSection set (olds.lookup k) 0 (Tab.get {} hs k) xs
    let (zs, hs', m) := bqSections olds sets (k + 1) (Tab.set {} hs k h) ys
    (zs, hs', n + m)

/-- The settings of sections that a commit changes, by section: what the crossfade of the commit block leaves. -/
def bqChanges : List (Option (List Int)) → List (Option (List Int)) → Nat → Tab (Option (List Int))
  | a :: as, b :: bs, k => if a = b then bqChanges as bs (k + 1) else (k, a) :: bqChanges as bs (k + 1)
  | _, _, _ => []

end Sys2Proof.Machine
end

