-- ==== Sys2Proof/Machine/Scene.lean ====
section
/-!
DEFINITION. Objects: their state and its glides (R113, R199 to R201), owners and orphan policies (R125, R126, R134), the
judgement of records (R112, R123, R131) and their application at step 3 (R124).
-/

namespace Sys2Proof

/-! ## Object records (R112, R138) -/

/-- The three words of POS as signed mm, or as azimuth, elevation and distance; in 1/65536 (R112). -/
def ObjRecord.place (r : ObjRecord) : Int × Int × Int :=
  if r.flags % 2 == 1 then
    ((r.pos0 / 65536 % 65536 : Nat) * 65536, toSigned 16 r.pos0 * 65536, (r.pos1 : Int) * 65536)
  else (toSigned 32 r.pos0 * 65536, toSigned 32 r.pos1 * 65536, toSigned 32 r.pos2 * 65536)

def ObjRecord.flag (r : ObjRecord) (b : Nat) : Bool := r.flags / 2 ^ b % 2 == 1

/-- A field that the record uses lies outside its range (code 11 of R138). -/
def ObjRecord.badRange (r : ObjRecord) : Bool :=
  let posBad :=
    if r.flag 0 then decide (16384 < (toSigned 16 r.pos0).natAbs) || decide (8388607 < r.pos1)
    else [r.pos0, r.pos1, r.pos2].any fun w => decide (toSigned 32 w < -8388608) || decide (8388607 < toSigned 32 w)
  ((r.flag 1 || r.flag 5) && posBad) || (r.flag 4 && decide (32768 < r.spread))

end Sys2Proof

namespace Sys2Proof.Machine

/-! ## Glides (R113, R23) -/

def Glide.still (v : Int) : Glide := { a := v, b := v }

/-- The value in effect. -/
def Glide.cur (g : Glide) : Int := if g.n ≤ g.k then g.b else g.a + roundDiv ((g.b - g.a) * (g.k : Int)) g.n

/-- A block has passed; a glide that has ended keeps one block more, for its value of the block before. -/
def Glide.step (g : Glide) : Glide := if g.n = 0 then g else { g with k := min (g.k + 1) (g.n + 1) }

def Glide.moving (g : Glide) : Bool := decide (g.k < g.n)

/-- The glide ran in the block before, or starts in this one. -/
def Glide.runs (g : Glide) : Bool := decide (0 < g.n) && decide (g.k ≤ g.n)

/-- The value in effect at the end of the block before (R21 step 5). -/
def Glide.last (g : Glide) : Int := ({ g with k := g.k - 1 } : Glide).cur

/-- The glide stops where it was at the end of the block before. -/
def Glide.stop (g : Glide) : Glide := if g.runs then Glide.still g.last else g

/-- A new glide from the value in effect at the end of the block before (R21, R23, R113). -/
def Glide.to (g : Glide) (v : Int) (n : Nat) : Glide := { a := g.last, b := v, n := n, k := 0 }

/-! ## Object state -/

def State.obj (s : State) (n : Nat) : ObjState := Tab.get ObjState.init s.scene.objs n

def State.setObj (s : State) (n : Nat) (o : ObjState) : State :=
  { s with scene := { s.scene with objs := Tab.set ObjState.init s.scene.objs n o } }

/-- The position in the form it is held in: mm, or azimuth, elevation and distance; in 1/65536. -/
def ObjState.pos (o : ObjState) : Int × Int × Int := (o.p0.cur, o.p1.cur, o.p2.cur)

/-- A free error of one of the two angles of a direction, which together turn it by at most 0.004° (R218). -/
def State.dirErr (s : State) (tag n k : Nat) : Int :=
  s.drawIn .render [(tag : Int), (n : Int), (k : Int)] (-33743) 33743

/-- A free error of an angle: at most 0.004° (R218). -/
def State.angleErr (s : State) (tag n : Nat) : Int := s.drawIn .render [(tag : Int), (n : Int)] (-47721) 47721

/-- A free relative error of at most 2^−18 of a length that is at most 1 too small (R218). -/
def State.lengthErr (s : State) (tag n : Nat) (d : Int) : Int :=
  s.drawIn .render [(tag : Int), (n : Int)] (-(d / 262144 - 1)) (d / 262144)

/-- Azimuth, elevation and distance of a place (R199), with the errors R218 allows; the distance in 2^−40 mm. -/
def State.toAed (s : State) (n : Nat) (x y z : Int) : Int × Int × Int :=
  let r2 := (x * x + y * y).toNat
  let d : Int := isqrt ((r2 + (z * z).toNat) * 2 ^ 48)
  let az := if x == 0 && y == 0 then 0 else (atan2Turn y x + s.angleErr 1 n) % 2 ^ 32
  let el := if d == 0 then 0 else clampInt (-(2 ^ 30)) (2 ^ 30) (atan2Turn z (isqrt r2) + s.angleErr 2 n)
  (az, el, d + s.lengthErr 3 n d)

/-- x, y and z of a direction and distance, each rounded to the nearest mm (R199): the place lies off by the angles R218 allows,
and along its direction by as much (log entry 11). -/
def State.toXyz (s : State) (n : Nat) (az el d : Int) : Int × Int × Int :=
  let az := az + s.dirErr 4 n 0
  let el := el + s.dirErr 5 n 0
  let bound := d * 73 / 2 ^ 20
  let d := d + s.drawIn .render [6, (n : Int)] (-bound) bound
  let h := d * cosTurn el
  let mm := fun (v : Int) (unit : Nat) => roundDiv v (65536 * unit) * 65536
  (mm (h * cosTurn az) (2 ^ 60), mm (h * sinTurn az) (2 ^ 60), mm (d * sinTurn el) (2 ^ 30))

/-- The live place of an object in x, y and z. -/
def State.objXyz (s : State) (n : Nat) : Int × Int × Int :=
  let o := s.obj n
  if o.aed then s.toXyz n o.p0.cur o.p1.cur o.p2.cur else o.pos

/-- The live direction and distance of an object, the distance in 2^−40 mm. -/
def State.objAed (s : State) (n : Nat) : Int × Int × Int :=
  let o := s.obj n
  if o.aed then (o.p0.cur % 2 ^ 32, o.p1.cur, o.p2.cur * 2 ^ 24) else s.toAed n o.p0.cur o.p1.cur o.p2.cur

/-- The place of an object in the form of a record, in its units. -/
def State.objPlace (s : State) (n : Nat) (aed : Bool) : Int × Int × Int :=
  if aed then
    let (a, b, d) := s.objAed n
    (a, b, roundDiv d (2 ^ 24))
  else s.objXyz n

/-- The live gain as a dB64 code (R201). -/
def ObjState.gainCode (o : ObjState) : Nat :=
  if o.mute && !o.gain.moving then 0x8000 else ofSigned 16 (roundDiv o.gain.cur 65536)

/-- A glide or an orphan policy runs. -/
def ObjState.gliding (o : ObjState) : Bool :=
  o.p0.moving || o.p1.moving || o.p2.moving || o.gain.moving || o.size.moving || o.spread.moving

/-- A glide ran in the block before, or starts in this one. -/
def ObjState.runs (o : ObjState) : Bool :=
  o.p0.runs || o.p1.runs || o.p2.runs || o.gain.runs || o.size.runs || o.spread.runs

/-- The position as it was at the end of the block before. -/
def ObjState.placed (o : ObjState) : ObjState :=
  { o with p0 := Glide.still o.p0.last, p1 := Glide.still o.p1.last, p2 := Glide.still o.p2.last }

/-- A block passes over an object. -/
def ObjState.step (o : ObjState) : ObjState :=
  let o := { o with
    p0 := o.p0.step, p1 := o.p1.step, p2 := o.p2.step, gain := o.gain.step, size := o.size.step
    spread := o.spread.step }
  if o.runs then o else { o with policy := 0 }

/-! ## Setting fields (R113, R200, R201) -/

/-- The azimuth moves by the shorter way; half a turn moves counter-clockwise (R200). -/
def azimuthTurn (fromAz dest : Int) : Int :=
  let d := toSigned 32 (ofSigned 32 (dest - fromAz))
  if d == -2147483648 then 2147483648 else d

/-- The position glides to a place in the form of a record. -/
def State.glidePos (s : State) (n : Nat) (aed : Bool) (dest : Int × Int × Int) (glide : Nat) : State :=
  let o := (s.obj n).placed
  let s := s.setObj n o
  let (a, b, c) := s.objPlace n aed
  let start : ObjState := { o with aed := aed, p0 := Glide.still a, p1 := Glide.still b, p2 := Glide.still c }
  let end0 := if aed then a + azimuthTurn a dest.1 else dest.1
  s.setObj n { start with
    p0 := if glide == 0 then Glide.still dest.1 else start.p0.to end0 glide
    p1 := start.p1.to dest.2.1 glide, p2 := start.p2.to dest.2.2 glide }

/-- The gain glides in dB; mute stands for −96 dB while it moves (R201). -/
def ObjState.glideGain (o : ObjState) (code glide : Nat) : ObjState :=
  let mute := code == 0x8000
  { o with gain := o.gain.to (if mute then -402653184 else toSigned 16 code * 65536) glide, mute := mute }

/-- Which object's owner is which: sessions 0 to 7, host 8, metadata port 9, none 15 (R125). -/
def State.owner (s : State) (n : Nat) : Nat :=
  let v := s.rd F.OSP_OBJn_OWNER [n]
  if 10 ≤ v then 15 else v

def State.setOwner (s : State) (n v : Nat) : State := s.wr F.OSP_OBJn_OWNER v [n]

/-- The home position in 1/65536 mm. -/
def State.home (s : State) (n : Nat) : Int × Int × Int :=
  (s.rdS F.OSP_HOMEn_X_V [n] * 65536, s.rdS F.OSP_HOMEn_Y_V [n] * 65536, s.rdS F.OSP_HOMEn_Z_V [n] * 65536)

/-- Stores a home position. -/
def State.setHome (s : State) (n : Nat) (p : Int × Int × Int) : State :=
  ((s.wrS F.OSP_HOMEn_X_V (roundDiv p.1 65536) [n]).wrS F.OSP_HOMEn_Y_V (roundDiv p.2.1 65536) [n]).wrS
    F.OSP_HOMEn_Z_V (roundDiv p.2.2 65536) [n]

/-- An orphan policy that runs ends where it is (R134). -/
def ObjState.endPolicy (o : ObjState) : ObjState :=
  match o.policy with
  | 1 => { o with gain := o.gain.stop, mute := o.mute && !o.gain.runs, policy := 0 }
  | 2 => { o with p0 := o.p0.stop, p1 := o.p1.stop, p2 := o.p2.stop, policy := 0 }
  | _ => o

/-- A record takes effect (R112, R113); `host` ignores RELEASE (R202). -/
def State.applyRecord (s : State) (host : Bool) (r : ObjRecord) : State :=
  let n := r.obj
  let s := s.setObj n (s.obj n).endPolicy
  let aed := r.flag 0
  let s :=
    if r.flag 5 then
      let (a, b, c) := r.place
      s.setHome n (if aed then s.toXyz n a b c else (a, b, c))
    else if r.flag 1 then s.glidePos n aed r.place r.glide
    else s
  let s := if r.flag 2 then s.setObj n ((s.obj n).glideGain r.gain r.glide) else s
  let o := s.obj n
  let s := if r.flag 3 then s.setObj n { o with size := o.size.to ((r.size : Int) * 65536) r.glide } else s
  let o := s.obj n
  let s := if r.flag 4 then s.setObj n { o with spread := o.spread.to ((r.spread : Int) * 65536) r.glide } else s
  if r.flag 6 && !host then s.setOwner n 15 else s

/-! ## Owners (R126, R133, R134) -/

/-- Blocks of a time in ms, rounded up. -/
def State.msBlocks (s : State) (ms : Nat) : Nat := (ms * s.rateHz + 31999) / 32000

/-- The orphan policy of an object starts from its present state (R134). -/
def State.orphan (s : State) (n : Nat) : State :=
  let pol := s.rd F.OSP_OBJn_POLICY [n]
  let g := s.msBlocks (s.rd F.OSP_OBJn_ORPHAN_MS [n])
  let o := s.obj n
  let held : ObjState := { o with
    p0 := o.p0.stop, p1 := o.p1.stop, p2 := o.p2.stop, gain := o.gain.stop, mute := o.mute && !o.gain.runs
    size := o.size.stop, spread := o.spread.stop, policy := 0 }
  match pol with
  | 1 => s.setObj n { (o.glideGain 0x8000 g) with policy := 1 }
  | 2 =>
    let s := (s.setObj n held).glidePos n false (s.home n) g
    s.setObj n { s.obj n with policy := 2 }
  | _ => s.setObj n held

/-- Objects an owner holds. -/
def State.owned (s : State) (o : Nat) : List Nat := (List.range s.objCount).filter fun n => s.owner n == o

/-- Steps 2 and 3 of R133 for every object of an owner. -/
def State.releaseAll (s : State) (o : Nat) : State :=
  (s.owned o).foldl (fun s n => (s.setOwner n 15).orphan n) s

/-- A written owner takes effect at step 2 of the next boundary; a session that is not open is ignored (R126). -/
def State.ownersTakeEffect (s : State) : State :=
  let l := s.scene.owners
  let s := { s with scene := { s.scene with owners := [] } }
  l.foldl (fun s (n, v) =>
    let v := if 10 ≤ v then 15 else v
    if v < 8 && (s.osp.ses.lookup v).isNone then s else s.setOwner n v) s

/-- The host writes an owner: the latest write stands; the present owner changes nothing. -/
def State.writeOwner (s : State) (n v : Nat) : State :=
  { s with scene := { s.scene with owners := Tab.put s.scene.owners n (if v = s.rd F.OSP_OBJn_OWNER [n] then none else some v) } }

/-! ## Judging a record (R112, R123, R125, R131) -/

/-- The code that refuses a record before its time is judged, 0 if none; an object without an owner is claimed. -/
def State.judge (s : State) (src : Nat) (r : ObjRecord) : State × Nat :=
  if s.objCount ≤ r.obj then (s, 9)
  else
    let o := s.owner r.obj
    let s' := if o == 15 then s.setOwner r.obj src else s
    if o != 15 && o != src then (s, 10) else if r.badRange then (s', 11) else (s', 0)

/-- The block whose start is the first at or after a media time in ns (R55, R123). -/
def State.dueBlock (s : State) (t : Nat) : Nat :=
  let d := 3 * (t : Int) - s.time.local3
  ((s.time.block : Int) + -((-d) / (s.block3 : Int))).toNat

/-- Refusal code, due block and lateness of an apply time (R123). -/
def State.timing (s : State) (t : Nat) : Nat × Nat × Bool :=
  let c := s.time.block
  if t == 0 then (0, c + 1, false)
  else if s.now3 + 6000000000 < 3 * t then (12, 0, false)
  else if s.dueBlock t ≤ c then (0, c + 1, true)
  else (0, s.dueBlock t, false)

/-- Records of a source in the store. -/
def State.storeOf (s : State) (src : Nat) : Nat :=
  ((s.scene.store.filter (·.src == src)).map (·.recs.length)).sum
    + (match s.scene.batches.lookup src with | some b => b.recs.length | none => 0)

/-- Records in the store. -/
def State.storeAll (s : State) : Nat :=
  (s.scene.store.map (·.recs.length)).sum + (s.scene.batches.map (·.2.recs.length)).sum

/-- A further record passes a bound of the store (R131, R172). -/
def State.storeFull (s : State) (src : Nat) : Bool :=
  let limit := if src == 9 then s.rd F.MDI_CTRL_PEND else s.rd F.OSP_BURST_PEND
  decide (65536 ≤ s.storeAll) || decide (limit ≤ s.storeOf src)

/-- Puts a record or a committed batch into the store. -/
def State.hold (s : State) (src due : Nat) (recs : List HeldRecord) (batch : Option Nat) : State :=
  { s with scene := { s.scene with
      store := s.scene.store ++ [{ src := src, order := s.scene.order, due := due, recs := recs, batch := batch }]
      order := s.scene.order + 1 } }

/-- Judges a record outside a batch: refusal code (0: held) and lateness. -/
def State.submit (s : State) (src : Nat) (h : HeldRecord) : State × Nat × Bool :=
  let (s, code) := s.judge src h.body
  if code != 0 then (s, code, false)
  else
    let (code, due, late) := s.timing h.body.apply
    if code != 0 then (s, code, false)
    else if s.storeFull src then (s.raise F.OSP_EVT_STORE_FULL, 14, false)
    else (s.hold src due [h] none, 0, late)

def State.setBatch (s : State) (src : Nat) (b : Option Batch) : State :=
  { s with scene := { s.scene with batches := Tab.put s.scene.batches src b } }

/-- A batch is doomed by its first refusal; its records leave the store (R128). -/
def Batch.fail (b : Batch) (code : Nat) : Batch :=
  { b with doom := if b.doom == 0 then code else b.doom, recs := [] }

/-- Judges a record of the open batch `b` of a source: refusal code, or 0. -/
def State.submitBatch (s : State) (src : Nat) (b : Batch) (h : HeldRecord) : State × Nat :=
  let b := { b with count := b.count + 1 }
  if b.count == 4097 then (s.setBatch src (some (b.fail 19)), 19)
  else
    let (s, code) := s.judge src h.body
    if code != 0 then (s.setBatch src (some (b.fail code)), code)
    else if b.doom != 0 then (s.setBatch src (some b), 0)
    else if s.storeFull src then ((s.setBatch src (some (b.fail 14))).raise F.OSP_EVT_STORE_FULL, 14)
    else (s.setBatch src (some { b with recs := b.recs ++ [h] }), 0)

/-! ## Step 3 (R21, R124) -/

/-- Which of two entries applies first: by source, then in processing order. -/
def Held.before (a b : Held) : Bool := a.src < b.src || (a.src == b.src && a.order ≤ b.order)

/-- The counter of applied records of a source. -/
def State.countApplied (s : State) (src : Nat) : State :=
  if src == 9 then s.count F.MDI_CNT_RECORDS_V else if src < 8 then s.count F.OSP_SESn_CNT_RECORDS_V [src] else s

/-- Every glide moves one block on. -/
def State.objectsStep (s : State) : State :=
  s.scene.objs.foldl (fun s e => s.setObj e.1 e.2.step) s

/-- The records due take effect: the host's targets, then the store in order. -/
def State.recordsApply (s : State) : State :=
  let host := s.scene.hostDue
  let due := insertSort Held.before (s.scene.store.filter fun h => decide (h.due ≤ s.time.block))
  let s := { s with scene := { s.scene with
    hostDue := [], store := s.scene.store.filter fun h => decide (s.time.block < h.due) } }
  let s := host.foldl (fun s r => if r.badRange then s else s.applyRecord true r) s
  due.foldl (fun s h => h.recs.foldl (fun s r => (s.applyRecord false r.body).countApplied h.src) s) s

/-- The record that the target registers of an object spell (R202). -/
def State.targetRecord (s : State) (n : Nat) : ObjRecord :=
  { obj := n, flags := s.rd F.QNC_OBJn_TFLAGS_FLAGS [n], apply := 0
    pos0 := s.rd F.QNC_OBJn_TPOS0_V [n], pos1 := s.rd F.QNC_OBJn_TPOS1_V [n], pos2 := s.rd F.QNC_OBJn_TPOS2_V [n]
    gain := s.rd F.QNC_OBJn_TGAIN_GAIN [n], size := s.rd F.QNC_OBJn_TGAIN_SIZE [n]
    spread := s.rd F.QNC_OBJn_TSHAPE_SPREAD [n], glide := s.rd F.QNC_OBJn_TSHAPE_GLIDE [n] }

end Sys2Proof.Machine
end

