-- ==== Sys2Proof/Machine/Osp.lean ====
section
/-!
DEFINITION. The engine of the Object Scene Protocol (R109 to R139): opening, sequencing, batches, errors, keepalive and
closing. Messages wait in a session's reorder buffer; the message numbered E is processed by the command of its type.
-/

namespace Sys2Proof

/-! ## What a message is (R111, R138) -/

/-- The length of R111 for a controller's message; types that controllers do not send have none. -/
def OspMsg.lengthOf (m : OspMsg) : Option Nat :=
  match m.type with
  | 0x01 => some 88
  | 0x10 => some 16
  | 0x11 => match m.body with
    | .update c _ => if 1 ≤ c ∧ c ≤ 45 then some (20 + 32 * c) else none
    | _ => none
  | 0x12 => some 24
  | 0x13 => some 16
  | 0x30 => some 16
  | 0x31 => some 20
  | _ => none

/-- The message carries a number of the sequence (R119). -/
def OspMsg.sequenced (m : OspMsg) : Bool := (decide (0x10 ≤ m.type) && decide (m.type ≤ 0x13)) || m.type == 0x31

/-- VERSION, MALFORMED or neither. -/
def OspMsg.bad (m : OspMsg) : Nat :=
  if m.version != 1 then 5
  else if m.lengthOf != some m.length || m.length != m.udpLen
    || (m.batch != 0 && !(decide (0x10 ≤ m.type) && decide (m.type ≤ 0x13))) then 6
  else 0

/-- The same source address, source UDP port and network port (R114, R118). -/
def UdpFrom.same (a b : UdpFrom) : Bool := a.port == b.port && a.addr == b.addr && a.udp == b.udp

end Sys2Proof

namespace Sys2Proof.Machine

/-! ## Sessions and messages (R110, R111) -/

def State.session (s : State) (n : Nat) : Option OspSession := s.osp.ses.lookup n

def State.setSession (s : State) (n : Nat) (x : Option OspSession) : State :=
  { s with osp := { s.osp with ses := Tab.put s.osp.ses n x } }

/-- The bytes of a message of the device (R110). -/
def ospBytes (type handle seq : Nat) (body : List Byte) : List Byte :=
  beBytes 2 0x4F53 ++ beBytes 1 1 ++ beBytes 1 type ++ beBytes 4 handle ++ beBytes 4 seq
    ++ beBytes 2 (16 + body.length) ++ beBytes 2 0 ++ body

/-- The engine sends a datagram to where a message came from, from the port, address and UDP port at which that message arrived
(R109): 46 bytes of headers and check sequence beside the payload. -/
def State.ospReply (s : State) (x : UdpFrom) (bytes : List Byte) : State :=
  s.reply x.port 0 (46 + bytes.length) (.osp x bytes)

/-- The device sends a message on session `n`, to where its latest message came from (log entry 172): its own number advances and
its interval restarts (R111, R132). -/
def State.ospSend (s : State) (n : Nat) (type : Nat) (body : List Byte) : State :=
  match s.session n with
  | none => s
  | some x =>
    (s.setSession n (some { x with devSeq := (x.devSeq + 1) % 2 ^ 32, tx3 := s.upNow3 })).ospReply x.src
      (ospBytes type x.handle x.devSeq body)

/-- An address is the device's on a port: NP_IPV4, or RED_VIP on the claiming unit (R109, R353). -/
def State.ospAddr (s : State) (port dst : Nat) : Bool :=
  dst == s.rd F.NP_IPV4_V [port]
    || (s.answersVip && dst == s.rd F.RED_VIP_ADDR)

/-- A datagram reaches the engine (R109). -/
def State.ospReaches (s : State) (src : UdpFrom) : Bool :=
  s.audio && s.on F.OSP_CTRL_EN && decide (src.port < 2) && s.rd F.OSP_CTRL_PORTS / 2 ^ src.port % 2 == 1
    && s.linkUp src.port && s.ospAddr src.port src.dst && src.dstUdp == s.rd F.OSP_CTRL_UDP

/-- The signed difference of two sequence numbers (R119). -/
def seqDiff (a b : Nat) : Int := toSigned 32 (ofSigned 32 ((a : Int) - (b : Int)))

/-! ## Errors (R138) -/

/-- The body of an ERROR message. -/
def errorBody (code index ref obj detail : Nat) : List Byte :=
  beBytes 2 code ++ beBytes 2 index ++ beBytes 4 ref ++ beBytes 2 obj ++ beBytes 2 0 ++ beBytes 4 detail

/-- What every ERROR records. -/
def State.errorLogged (s : State) (code source obj ref : Nat) : State :=
  let s := ((s.wr F.OSP_ERRLOG_CODE code).wr F.OSP_ERRLOG_SOURCE source).wr F.OSP_ERRLOG_OBJ obj
  let s := (s.wr F.OSP_ERRSEQ_V ref).wr F.OSP_ERRTIME_V s.stamp
  (s.count F.OSP_CNT_ERR_SENT_V).raise F.OSP_EVT_ERR_SENT

/-- An error outside a session is answered to the sender. -/
def State.errorTo (s : State) (dest : UdpFrom) (code ref : Nat) : State :=
  (s.ospReply dest (ospBytes 0x3F 0 0 (errorBody code 0xFFFF ref 0xFFFF 0))).errorLogged code 8 0xFFFF ref

/-- An error of session `n` that a message draws once (R138). -/
def State.errorOnce (s : State) (n code ref : Nat) (detail : Nat := 0) : State :=
  match s.session n with
  | none => s
  | some x =>
    if x.closing.isSome then s
    else (s.ospSend n 0x3F (errorBody code 0xFFFF ref 0xFFFF detail)).errorLogged code n 0xFFFF ref

/-- An error of session `n` about message `ref`: at most 8 answers for one message; the rest are counted. -/
def State.error (s : State) (n code ref : Nat) (index : Nat := 0xFFFF) (obj : Nat := 0xFFFF) (detail : Nat := 0) : State :=
  match s.session n with
  | none => s
  | some x =>
    if x.closing.isSome then s
    else
      let k := Tab.get 0 x.used ref
      if 8 ≤ k then s.count F.OSP_CNT_ERR_SUPPRESSED_V
      else
        let s := s.setSession n (some { x with used := Tab.set 0 x.used ref (k + 1) })
        (s.ospSend n 0x3F (errorBody code index ref obj detail)).errorLogged code n obj ref

/-- A refused record: counted in REFUSED and answered. -/
def State.refuse (s : State) (n code ref index obj : Nat) : State :=
  (s.count F.OSP_SESn_CNT_REFUSED_V [n]).error n code ref index obj

/-- A record of the metadata port is refused (R172): its tag stands in `index`. -/
def State.mdiRefuse (s : State) (code tag obj : Nat) : State :=
  let s := ((s.wr F.MDI_ERRLOG_CODE code).wr F.MDI_ERRLOG_TAG tag).wr F.MDI_ERRLOG_OBJ obj
  ((s.wr F.MDI_ERRTIME_NS s.stamp).count F.MDI_CNT_REFUSED_V).raise F.MDI_EVT_ERR

/-! ## Opening (R114 to R118, R136) -/

/-- The loaded keys of a role (R403). -/
def State.roleKeys (s : State) (role : Nat) : List (List Byte) :=
  ((List.range 2).map fun k => Tab.get [] s.keys (2 * role + k)).filter fun k => !k.isEmpty

/-- 16 random bytes. -/
def State.random16 (s : State) (tag : Nat) : List Byte :=
  (List.range 16).map fun (i : Nat) => BitVec.ofNat 8 (s.draw .nonce [(tag : Int), (i : Int)])

/-- The challenges that are still held: those drawn within the last second (R114). -/
def State.challengesHeld (s : State) : List Challenge :=
  s.osp.challenges.filter fun c => decide (s.time.up3 < c.drawn3 + 3000000000)

/-- The body of a WELCOME. -/
def welcomeBody (stage role kaMs handle : Nat) (dnonce mac : List Byte) (objects time : Nat) : List Byte :=
  beBytes 1 stage ++ beBytes 1 role ++ beBytes 2 kaMs ++ beBytes 4 handle ++ dnonce ++ mac ++ beBytes 2 objects
    ++ beBytes 2 0 ++ beBytes 8 time

/-- HELLO from this address is ignored (R117). -/
def State.helloIgnored (s : State) (src : UdpFrom) : Bool := (s.osp.ignored.lookup src.addr).isSome

/-- HELLO_STAGE0: a challenge is drawn, held and sent. -/
def State.helloStage0 (s : State) (src : UdpFrom) (b : HelloBody) : State :=
  if !s.ospReaches src then s
  else if s.helloIgnored src then s.count F.OSP_CNT_AUTH_FAIL_V
  else if b.stage != 0 then (s.count F.OSP_CNT_MALFORMED_V).errorTo src 6 b.seq
  else
    let dn := s.random16 0
    let c : Challenge := { src := src, dnonce := dn, drawn3 := s.upNow3 }
    let s := { s with osp := { s.osp with challenges := (c :: s.challengesHeld).take 16 } }
    s.ospReply src (ospBytes 0x02 0 0 (welcomeBody 0 0 0 0 dn (List.replicate 32 0) 0 0))

/-- CHALLENGE_EXPIRY: a challenge has been held for 1 s. -/
def State.challengeExpiry (s : State) (src : UdpFrom) : State :=
  { s with osp := { s.osp with
      challenges := s.osp.challenges.filter fun c => !c.src.same src || !s.elapsed c.drawn3 3000000000 } }

/-- A refused STAGE 1 HELLO consumes what its source has outstanding (log entry 173); the fourth AUTH or ROLE within 10 s from an address makes the device ignore it. -/
def State.helloRefused (s : State) (src : UdpFrom) (code seq : Nat) : State :=
  let s := { s with osp := { s.osp with challenges := s.osp.challenges.filter fun c => !c.src.same src } }
  let s := s.errorTo src code seq
  if code == 3 then s
  else
    let s := (s.count F.OSP_CNT_AUTH_FAIL_V).raise F.OSP_EVT_AUTH_FAIL
    let now := s.upNow3
    let fails := (src.addr, now) :: s.osp.fails.filter fun f => decide (now < f.2 + 30000000000)
    if 4 ≤ (fails.filter (·.1 == src.addr)).length then
      { s with osp := { s.osp with fails := fails.filter (·.1 != src.addr), ignored := Tab.put s.osp.ignored src.addr (some now) } }
    else { s with osp := { s.osp with fails := fails } }

/-- HELLO_IGNORE_END. -/
def State.helloIgnoreEnd (s : State) (addr : Nat) : State :=
  match s.osp.ignored.lookup addr with
  | some t =>
    if s.elapsed t 30000000000 then { s with osp := { s.osp with ignored := Tab.put s.osp.ignored addr none } } else s
  | none => s

/-- A session opens in a slot (R116). -/
def State.openSession (s : State) (n : Nat) (src : UdpFrom) (b : HelloBody) (key : List Byte) : State :=
  let handle := 1 + s.draw .handle % (2 ^ 32 - 1)
  let ka := if b.kaMs == 0 then 1000 else clampNat 100 10000 b.kaMs
  let now := s.upNow3
  let mac := hmacSha256 key (b.cnonce ++ b.dnonce ++ beBytes 4 handle)
  let msg := ospBytes 0x02 handle 0 (welcomeBody 1 b.role ka handle b.dnonce mac s.objCount (now / 3))
  let x : OspSession :=
    { src := src, handle := handle, role := b.role, kaMs := ka, e := b.seq0 % 2 ^ 32, cnonce := b.cnonce
      dnonce := b.dnonce, welcome := msg, devSeq := 1, tokens := s.rd F.OSP_BURST_BURST * 3000000000, tokens3 := now
      rx3 := now, tx3 := now }
  let s := [F.OSP_SESn_CNT_MSGS_V, F.OSP_SESn_CNT_RECORDS_V, F.OSP_SESn_CNT_DUP_V, F.OSP_SESn_CNT_WINDOW_V,
    F.OSP_SESn_CNT_NAK_V, F.OSP_SESn_CNT_LOST_V, F.OSP_SESn_CNT_LATE_V, F.OSP_SESn_CNT_REFUSED_V].foldl
      (fun s f => s.wr f 0 [n]) s
  ((s.setSession n (some x)).ospReply src msg).raise F.OSP_EVT_OPEN

/-- The MAC of a STAGE 1 HELLO (R115). -/
def State.helloMac (s : State) (src : UdpFrom) (b : HelloBody) (key : List Byte) : List Byte :=
  hmacSha256 key (b.dnonce ++ b.cnonce ++ beBytes 1 b.role ++ beBytes 2 b.kaMs ++ beBytes 4 b.seq0
    ++ beBytes 6 (s.macAddr src.port))

/-- HELLO_STAGE1: repeated, refused or accepted (R116, R117). -/
def State.helloStage1 (s : State) (src : UdpFrom) (b : HelloBody) : State :=
  if !s.ospReaches src then s
  else if s.helloIgnored src then s.count F.OSP_CNT_AUTH_FAIL_V
  else if b.stage != 1 then (s.count F.OSP_CNT_MALFORMED_V).errorTo src 6 b.seq
  else
    match s.osp.ses.find? fun e => e.2.src.same src && e.2.cnonce == b.cnonce && e.2.dnonce == b.dnonce && e.2.closing.isNone with
    | some (_, x) => s.ospReply src x.welcome
    | none =>
      let known := s.challengesHeld.any fun c => c.src.same src && c.dnonce == b.dnonce
      let key := (s.roleKeys b.role).find? fun k => s.helloMac src b k == b.mac
      let free := (List.range 8).find? fun n => (s.session n).isNone
      if b.role != 1 && b.role != 2 then s.helloRefused src 2 b.seq
      else match known, key with
        | true, some k =>
          match free with
          | some n =>
            let left := s.osp.challenges.filter fun c => !(c.src.same src && c.dnonce == b.dnonce)
            ({ s with osp := { s.osp with challenges := left } } : State).openSession n src b k
          | none => s.helloRefused src 3 b.seq
        | _, _ => s.helloRefused src 1 b.seq

/-! ## Sequencing (R119 to R122) -/

/-- The number E is missing: since when (R121). A new E starts a new gap. -/
def OspSession.regap (x : OspSession) (now : Nat) : OspSession :=
  let ka := match x.kaSeq with
    | some k => if 0 < seqDiff k x.e then some k else none
    | none => none
  let missing := (x.buf.lookup x.e).isNone && (!x.buf.isEmpty || ka.isSome)
  let gap := if !missing then none
    else match x.gap with
      | some (e, t) => if e == x.e then some (e, t) else some (x.e, now)
      | none => some (x.e, now)
  { x with kaSeq := ka, gap := gap, nak3 := if gap == x.gap then x.nak3 else now }

/-- E passes messages that are kept only for their number. -/
def OspSession.skip (x : OspSession) : Nat → OspSession
  | 0 => x
  | k + 1 =>
    match x.buf.lookup x.e with
    | some none => { x with buf := Tab.put x.buf x.e none, e := (x.e + 1) % 2 ^ 32, ackDue := true }.skip k
    | _ => x

/-- E passes the message it names. -/
def OspSession.pass (x : OspSession) (now : Nat) : OspSession :=
  ({ x with buf := Tab.put x.buf x.e none, e := (x.e + 1) % 2 ^ 32, ackDue := true }.skip x.buf.length).regap now

/-- A sequenced message, or the number of a malformed one, reaches the reorder buffer (R119). -/
def State.place (s : State) (n : Nat) (x : OspSession) (seq : Nat) (m : Option OspMsg) : State :=
  let d := seqDiff seq x.e
  if d < 0 ∨ (x.buf.lookup seq).isSome then
    (s.setSession n (some { x with ackDue := true })).count F.OSP_SESn_CNT_DUP_V [n]
  else if 256 ≤ d then ((s.setSession n (some x)).count F.OSP_SESn_CNT_WINDOW_V [n]).errorOnce n 7 seq
  else
    let x := { x with buf := Tab.put x.buf seq (some m), used := Tab.put x.used seq none }
    s.setSession n (some ((x.skip x.buf.length).regap s.upNow3))

/-- The ranges from `prev` on that a rising list leaves out, as first number and span: below its last number, and below `top`. -/
def missingRanges (top : Nat) : List Nat → Nat → List (Nat × Nat)
  | [], prev => if prev < top then [(prev, top - prev)] else []
  | h :: hs, prev => (if prev < h then [(prev, h - prev)] else []) ++ missingRanges top hs (max prev (h + 1))

/-- The missing ranges of a session upward from E: below the messages held, and below the number that a KEEPALIVE gave (R121). -/
def OspSession.missing (x : OspSession) : List (Nat × Nat) :=
  let off := fun k : Nat => (seqDiff k x.e).toNat
  let held := insertSort (fun a b => decide (a ≤ b)) (x.buf.map fun e => off e.1)
  let top := match x.kaSeq with | some k => off k | none => 0
  (missingRanges top held 0).map fun r => ((x.e + r.1) % 2 ^ 32, r.2)

/-- NAK: a gap has lasted 2 ms, or 2 ms more. -/
def State.nak (s : State) (n : Nat) : State :=
  match s.session n with
  | some x =>
    if x.gap.isSome && x.closing.isNone && s.elapsed x.nak3 6000000 then
      let l := x.missing.take 32
      let s := (s.setSession n (some { x with nak3 := x.nak3 + 6000000 })).count F.OSP_SESn_CNT_NAK_V [n]
      s.ospSend n 0x21 (beBytes 2 l.length ++ beBytes 2 0 ++ (l.map fun r => beBytes 4 r.1 ++ beBytes 4 r.2).flatten)
    else s
  | none => s

/-- The open batch of a source ends with BATCH_FAIL or BATCH_TIMEOUT, which names its SCENE_BEGIN; a doomed one with BATCH_FAIL and
the code of its first refusal (R128, log entry 174). -/
def State.endBatch (s : State) (n code detail : Nat) : State :=
  match s.scene.batches.lookup n with
  | some b =>
    if b.doom != 0 then (s.setBatch n none).error n 17 b.seq 0xFFFF 0xFFFF b.doom
    else (s.setBatch n none).error n code b.seq 0xFFFF 0xFFFF detail
  | none => s

/-- LOST: E has been missing for GIVEUP and is given up (R122). -/
def State.giveUp (s : State) (n : Nat) : State :=
  match s.session n with
  | some x =>
    match x.gap, x.missing with
    | some (_, t), (first, span) :: _ =>
      if x.closing.isNone && s.elapsed t (s.rd F.OSP_TIMERS_GIVEUP * 3000000) then
        let y := { x with e := (x.e + span) % 2 ^ 32, ackDue := true }
        let s := s.setSession n (some ((y.skip y.buf.length).regap s.upNow3))
        let s := (s.count F.OSP_SESn_CNT_LOST_V [n] span).raise F.OSP_EVT_LOST
        (s.errorOnce n 8 first span).endBatch n 17 8
      else s
    | _, _ => s
  | none => s

/-! ## Receiving (R118, R138) -/

/-- A message with a handle that no session holds from there (R118). -/
def State.noSession (s : State) (src : UdpFrom) (known : Bool) (seq : Nat) : State :=
  let s := s.count F.OSP_CNT_NO_SESSION_V
  if known then s
  else
    let now := s.upNow3
    let l := s.osp.unknown3.filter fun t => decide (now < t + 3000000000)
    if l.length < 10 then
      let s := { s with osp := { s.osp with unknown3 := now :: l } }
      s.errorTo src 4 seq
    else s.count F.OSP_CNT_ERR_SUPPRESSED_V

/-- A message of session `n` that arrives from its binding `src`. -/
def State.sessionMessage (s : State) (n : Nat) (x : OspSession) (src : UdpFrom) (m : OspMsg) : State :=
  let code := m.bad
  let x := { x with src := src }
  if x.closing.isSome then s
  else if code != 0 then
    let s := s.setSession n (some x)
    let s := if code == 6 then s.count F.OSP_CNT_MALFORMED_V else s
    let s := s.errorOnce n code m.seq
    match s.session n with
    | some x => if code == 6 && m.sequenced then s.place n x m.seq none else s
    | none => s
  else
    let s := s.count F.OSP_SESn_CNT_MSGS_V [n]
    let x := { x with rx3 := s.upNow3 }
    if m.type == 0x30 then
      let x := if 0 < seqDiff m.seq x.e then { x with kaSeq := some (m.seq % 2 ^ 32) } else x
      s.setSession n (some (x.regap s.upNow3))
    else s.place n x (m.seq % 2 ^ 32) (some m)

/-- OSP_MESSAGE and KEEPALIVE: a message other than HELLO reaches the engine. -/
def State.ospReceive (s : State) (src : UdpFrom) (m : OspMsg) : State :=
  if !s.ospReaches src then s
  else if m.magic != 0x4F53 then s.count F.OSP_CNT_MALFORMED_V
  else if m.type == 0x01 then
    if m.bad == 0 then s
    else (if m.bad == 6 then s.count F.OSP_CNT_MALFORMED_V else s).errorTo src m.bad m.seq
  else match s.osp.ses.find? fun e => e.2.handle == m.handle with
    | some (n, x) => if x.src.same src then s.sessionMessage n x src m else s.noSession src true m.seq
    | none => s.noSession src false m.seq

/-! ## Processing (R123 to R131) -/

/-- A session's message numbered E, which waits to be processed. -/
def State.waiting (s : State) (n : Nat) : Option (OspSession × OspMsg) :=
  match s.session n with
  | some x =>
    match x.buf.lookup x.e with
    | some (some m) => if x.closing.isNone && s.audio then some (x, m) else none
    | _ => none
  | none => none

/-- The session whose message is processed next: the first in turn that has one waiting (R130). -/
def State.nextTurn (s : State) : Option Nat :=
  ((List.range 8).map fun k => (s.osp.turn + k) % 8).find? fun n => (s.waiting n).isSome

/-- The message numbered E of session `n`, when it has the given type and it is that session's turn. -/
def State.front (s : State) (n type : Nat) : Option (OspSession × OspMsg) :=
  if s.nextTurn == some n then (s.waiting n).filter fun e => e.2.type == type else none

/-- E passes the processed message of `k` records; the turn goes on to the next session. -/
def State.passE (s : State) (n : Nat) (k : Nat := 0) : State :=
  let s := { s with osp := { s.osp with turn := (n + 1) % 8, done := s.osp.done + k } }
  match s.session n with
  | some x => s.setSession n (some (x.pass s.upNow3))
  | none => s

/-- The bucket of a session filled to now (R130). -/
def State.fillBucket (s : State) (x : OspSession) : OspSession :=
  { x with
    tokens := min (s.rd F.OSP_BURST_BURST * 3000000000) (x.tokens + s.rd F.OSP_RATE_RATE * (s.upNow3 - x.tokens3))
    tokens3 := s.upNow3 }

/-- A record takes a token, if there is one. -/
def State.takeToken (s : State) (n : Nat) : State × Bool :=
  match s.session n with
  | some x =>
    if 3000000000 ≤ x.tokens then (s.setSession n (some { x with tokens := x.tokens - 3000000000 }), true) else (s, false)
  | none => (s, false)

/-- A late record or batch is counted (R123). -/
def State.late (s : State) (n : Nat) (b : Bool) : State :=
  if b then (s.count F.OSP_SESn_CNT_LATE_V [n]).raise F.OSP_EVT_LATE else s

/-- The records of an OBJ_UPDATE, one by one. -/
def State.updateRecords (s : State) (n seq batch : Nat) : List ObjRecord → Nat → State
  | [], _ => s
  | r :: rs, i =>
    let (s, got) := s.takeToken n
    let h : HeldRecord := { body := r, seq := seq, index := i }
    let (s, code) :=
      match s.scene.batches.lookup n with
      | some b =>
        if batch == 0 then
          if got then let (s, c, l) := s.submit n h; (s.late n l, c) else (s, 13)
        else if got then s.submitBatch n b h
        else (s.setBatch n (some (b.fail 13)), 13)
      | none => if got then let (s, c, l) := s.submit n h; (s.late n l, c) else (s, 13)
    let s := if code == 0 then s else s.refuse n code seq i r.obj
    s.updateRecords n seq batch rs (i + 1)

/-- The message names the open batch of the session. -/
def State.inBatch (s : State) (n batch : Nat) : Bool :=
  match s.scene.batches.lookup n with
  | some b => b.ident == batch && batch != 0
  | none => false

/-- OBJ_UPDATE. -/
def State.objUpdate (s : State) (n : Nat) : State :=
  match s.front n 0x11 with
  | some (x, m) =>
    let recs := match m.body with | .update _ l => l | _ => []
    let s :=
      if m.batch != 0 && !s.inBatch n m.batch then
        (s.count F.OSP_SESn_CNT_REFUSED_V [n] recs.length).error n 15 m.seq
      else (s.setSession n (some (s.fillBucket x))).updateRecords n m.seq m.batch recs 0
    s.passE n recs.length
  | none => s

/-- The session's batch is open: there is one, and it is not doomed (R136). -/
def State.batchOpen (s : State) (n : Nat) : Bool :=
  match s.scene.batches.lookup n with
  | some b => b.doom == 0
  | none => false

/-- SCENE_BEGIN: opens a batch (R127, R129); a doomed batch that has waited for its commit ends (log entry 174). -/
def State.sceneBegin (s : State) (n : Nat) : State :=
  match s.front n 0x10 with
  | some (_, m) =>
    let s :=
      if m.batch == 0 then (s.count F.OSP_CNT_MALFORMED_V).error n 6 m.seq
      else if s.batchOpen n then s.error n 16 m.seq
      else (s.endBatch n 17 0).setBatch n (some { ident := m.batch, seq := m.seq, opened3 := s.upNow3 })
    s.passE n
  | none => s

/-- SCENE_COMMIT: closes the batch; its own apply time places it (R127, R128). -/
def State.sceneCommit (s : State) (n : Nat) : State :=
  match s.front n 0x12 with
  | some (_, m) =>
    let t := match m.body with | .commit t => t | _ => 0
    let s :=
      match s.scene.batches.lookup n with
      | some b =>
        if !s.inBatch n m.batch then s.error n 15 m.seq
        else
          let s := s.setBatch n none
          let (code, due, late) := s.timing t
          if b.doom != 0 then s.error n 17 m.seq 0xFFFF 0xFFFF b.doom
          else if code != 0 then s.error n 17 m.seq 0xFFFF 0xFFFF code
          else (s.hold n due b.recs (some m.seq)).late n late
      | none => s.error n 15 m.seq
    s.passE n
  | none => s

/-- SCENE_ABORT: discards the batch (R127); a doomed one is answered BATCH_FAIL (R128). -/
def State.sceneAbort (s : State) (n : Nat) : State :=
  match s.front n 0x13 with
  | some (_, m) =>
    let s :=
      match s.scene.batches.lookup n with
      | some b =>
        if !s.inBatch n m.batch then s.error n 15 m.seq
        else if b.doom != 0 then (s.setBatch n none).error n 17 m.seq 0xFFFF 0xFFFF b.doom
        else s.setBatch n none
      | none => s.error n 15 m.seq
    s.passE n
  | none => s

/-- BATCH_TIMEOUT (R129). -/
def State.batchTimeout (s : State) (n : Nat) : State :=
  match s.scene.batches.lookup n with
  | some b => if s.elapsed b.opened3 (s.rd F.OSP_TIMERS_BATCHMAX * 3000000) then s.endBatch n 18 0 else s
  | none => s

/-! ## Keepalive and closing (R132, R133) -/

/-- The device sends BYE; the steps of R133 follow at the next boundary. -/
def State.closeSession (s : State) (n reason : Nat) : State :=
  match s.session n with
  | some x =>
    if x.closing.isSome then s
    else
      let s := s.ospSend n 0x31 (beBytes 2 reason ++ beBytes 2 0)
      match s.session n with
      | some x => s.setSession n (some { x with closing := some reason })
      | none => s
  | none => s

/-- BYE of the controller is processed. -/
def State.bye (s : State) (n : Nat) : State :=
  match s.front n 0x31 with
  | some _ => (s.passE n).closeSession n 0
  | none => s

/-- KEEPALIVE_SEND: the device has sent nothing for KA_MS. -/
def State.keepaliveSend (s : State) (n : Nat) : State :=
  match s.session n with
  | some x => if x.closing.isNone && s.elapsed x.tx3 (x.kaMs * 3000000) then s.ospSend n 0x30 [] else s
  | none => s

/-- TIMEOUT: three whole intervals without a valid message. -/
def State.sessionTimeout (s : State) (n : Nat) : State :=
  match s.session n with
  | some x =>
    if x.closing.isNone && s.elapsed x.rx3 (3 * x.kaMs * 3000000) then (s.closeSession n 20).raise F.OSP_EVT_TIMEOUT else s
  | none => s

/-- Clearing OSP_CTRL.EN closes every session. -/
def State.ospOff (s : State) : State :=
  let s := { s with osp := { s.osp with challenges := [] } }
  (List.range 8).foldl (fun s n => s.closeSession n 22) s

/-- Step 1 of R133, and steps 2 to 4. -/
def State.finishClose (s : State) (n : Nat) (x : OspSession) : State :=
  let buffered := (x.buf.map fun e => match e.2 with
    | some m => match m.body with | .update _ l => l.length | _ => 0
    | none => 0).sum
  let s := s.count F.OSP_SESn_CNT_REFUSED_V [n] (buffered + s.storeOf n)
  let s := { s with scene := { s.scene with
    store := s.scene.store.filter (·.src != n), batches := Tab.put s.scene.batches n none } }
  ((s.releaseAll n).setSession n none).raise F.OSP_EVT_CLOSE

/-- One session at a block boundary: its closing, or its ACK (R120). -/
def State.sessionTick (s : State) (n : Nat) : State :=
  match s.session n with
  | some x =>
    if x.closing.isSome then s.finishClose n x
    else if x.ackDue then
      (s.setSession n (some { x with ackDue := false })).ospSend n 0x20
        (beBytes 4 x.e ++ beBytes 2 (256 - x.buf.length) ++ beBytes 2 0 ++ beBytes 8 s.time.block
          ++ beBytes 8 (s.time.local3 / 3))
    else s
  | none => s

/-- The sessions at a block boundary. -/
def State.ospTick (s : State) : State :=
  (List.range 8).foldl State.sessionTick { s with osp := { s.osp with done := 0 } }

/-- The message whose turn it is, if it is of session `n`, is processed by the action of its type. -/
def State.processFront (s : State) (n : Nat) : State :=
  match s.waiting n with
  | some (_, m) =>
    match m.type with
    | 0x10 => s.sceneBegin n
    | 0x11 => s.objUpdate n
    | 0x12 => s.sceneCommit n
    | 0x13 => s.sceneAbort n
    | 0x31 => s.bye n
    | _ => s
  | none => s

/-- The engine works in turn through what waits until it has processed 4,096 records in this block (R130). -/
def State.ospWork : Nat → State → State
  | 0, s => s
  | k + 1, s =>
    if 4096 ≤ s.osp.done then s
    else match s.nextTurn with
      | some n => State.ospWork k (s.processFront n)
      | none => s

/-- The work of a block that is not done yet when it ends: at most 256 messages of each of 8 sessions wait. -/
def State.ospBlockEnd (s : State) : State := State.ospWork 2048 s

/-! ## Ownership again at step 3 (R126) -/

/-- A record whose object its source no longer owns. -/
def State.disowned (s : State) (src : Nat) (h : HeldRecord) : Bool := s.owner h.body.obj != src

/-- The answers to records that were discarded. -/
def State.answerDisowned (s : State) (src : Nat) (l : List HeldRecord) : State :=
  l.foldl (fun s h =>
    if src == 9 then s.mdiRefuse 10 h.index h.body.obj else s.refuse src 10 h.seq h.index h.body.obj) s

/-- The store after the check: an entry loses the record, a batch falls whole. -/
def State.recheckStore (s : State) : State :=
  let bad := fun h : Held => h.recs.filter fun r => s.disowned h.src r
  let keep := (s.scene.store.map fun h =>
    if (bad h).isEmpty then h
    else if h.batch.isSome then { h with recs := [] } else { h with recs := h.recs.filter fun r => !s.disowned h.src r })
  let fallen := s.scene.store.filter fun h => !(bad h).isEmpty
  let s := { s with scene := { s.scene with store := keep.filter fun h => !h.recs.isEmpty } }
  fallen.foldl (fun s h =>
    let s := s.answerDisowned h.src (bad h)
    match h.batch with
    | some seq => s.error h.src 17 seq 0xFFFF 0xFFFF 10
    | none => s) s

/-- An open batch that lost an object is doomed with OWNED. -/
def State.recheckBatches (s : State) : State :=
  s.scene.batches.foldl (fun s (n, b) =>
    let bad := b.recs.filter fun r => s.disowned n r
    if bad.isEmpty then s else (s.setBatch n (some (b.fail 10))).answerDisowned n bad) s

/-- Step 3 of R21. -/
def State.sceneStep (s : State) : State := s.recheckStore.recheckBatches.recordsApply

/-! ## What the registers show -/

/-- Messages from E on that are ready, and their records (R130). -/
def readyRecords (buf : Tab (Option OspMsg)) : Nat → Nat → Nat
  | 0, _ => 0
  | k + 1, e =>
    match buf.lookup e with
    | some (some m) => (match m.body with | .update _ l => l.length | _ => 0) + readyRecords buf k ((e + 1) % 2 ^ 32)
    | some none => readyRecords buf k ((e + 1) % 2 ^ 32)
    | none => 0

/-- OSP_BACKLOG.WAIT. -/
def State.backlog (s : State) : Nat := (s.osp.ses.map fun e => readyRecords e.2.buf e.2.buf.length e.2.e).sum

/-- OSP_SESn_STAT.STATE. -/
def State.sessionState (s : State) (n : Nat) : Nat :=
  if (s.session n).isNone then 0 else if s.batchOpen n then 2 else 1

end Sys2Proof.Machine
end

