-- ==== Sys2Proof/Machine/Bramble.lean ====
section
/-!
DEFINITION. The queue pool (R157 to R169) and the metadata port (R170 to R173). The registers BRMq_STAT, BRMq_RDTAG,
BRMq_HEADi and BRM_STAT are read live from the queues.
-/

namespace Sys2Proof.Machine

/-! ## Queues (R157) -/

def State.queue (s : State) (q : Nat) : BrmQueue := Tab.get BrmQueue.init s.brm q

def State.setQueue (s : State) (q : Nat) (x : BrmQueue) : State :=
  { s with brm := Tab.set BrmQueue.init s.brm q x }

/-- Cells in use: two words to a cell. -/
def BrmQueue.cells (x : BrmQueue) : Nat := (x.words.length + (if x.odd then 1 else 0) + 1) / 2

/-- The shared remainder of R157. -/
def State.shared (s : State) : Nat :=
  65536 - ((List.range 256).map fun q =>
    if s.on F.BRMq_CFG_EN [q] then max (s.rd F.BRMq_SIZE_RSV [q]) (s.queue q).cells else 0).sum

/-- The test unit forces the queue full (R444). -/
def State.forcedFull (s : State) (q : Nat) : Bool := s.on F.TST_QFULL_EN && s.rd F.TST_QFULL_QUEUE == q

/-- The next word needs a cell that the queue cannot take (R157). -/
def State.noCell (s : State) (q : Nat) : Bool :=
  let x := s.queue q
  let needs := (x.words.length + (if x.odd then 1 else 0)) % 2 == 0
  needs && (decide (s.rd F.BRMq_SIZE_CAP [q] ≤ x.cells)
    || (decide (s.rd F.BRMq_SIZE_RSV [q] ≤ x.cells) && s.shared == 0))

def State.queueFull (s : State) (q : Nat) : Bool := s.forcedFull q || s.noCell q

/-! ## Marks (R166, R167) -/

/-- SIDE is judged anew after a change of the level; after a read that an append meets, once the append is done (R164). -/
def State.judgeMarks (s : State) (q : Nat) : State :=
  let x := s.queue q
  if x.meets then s else
  let n := x.words.length
  let side := if s.rd F.BRMq_HWM_MARK [q] ≤ n then true else if n ≤ s.rd F.BRMq_LWM_MARK [q] then false else x.side
  if side == x.side then s
  else
    let s := (s.setQueue q { x with side := side }).count F.BRMq_CNT_CROSS_V [q]
    s.raise (if side then F.BRMq_EVT_HI_CROSS else F.BRMq_EVT_LO_CROSS) [q]

/-! ## Append, flush, read, reset (R159 to R165) -/

/-- A word with its tag is appended, or discarded by R163 or R165: the state, and whether it was kept. `t`: the tag of the metadata
port that wrote it. -/
def State.append (s : State) (q tag word : Nat) (t : Nat := 0) : State × Bool :=
  let x := { s.queue q with meets := false }
  let s := s.setQueue q x
  if x.resetting || s.queueFull q then
    let s := if s.forcedFull q then s.count F.TST_CNT_QFULL_V else s
    (((s.count F.BRMq_CNT_OVERRUN_V [q]).raise F.BRMq_EVT_OVERRUN [q]).judgeMarks q, false)
  else
    let before := s.shared
    let s := s.setQueue q { x with words := x.words ++ [(tag, word)], writers := x.writers ++ [t] }
    let s := s.raiseIf (before != 0 && s.shared == 0) F.BRM_EVT_SHARED_EMPTY
    (s.judgeMarks q, true)

/-- `n` bits enter the assembly word of a queue from the lowest; a full one is appended. Also: whether a word was
completed and dropped. -/
def State.assemble (s : State) (q n v : Nat) : State × Bool :=
  let x := s.queue q
  let asm := x.asm + v * 2 ^ x.asmBits
  let bits := x.asmBits + n
  let x := { x with wrote3 := s.upNow3 }
  if bits < 256 then (s.setQueue q { x with asm := asm, asmBits := bits }, false)
  else
    let s := s.setQueue q { x with asm := asm / 2 ^ 256, asmBits := bits - 256 }
    let (s, kept) := s.append q 32 (asm % 2 ^ 256)
    (s, !kept)

/-- Flushes an assembly word held apart from the queue: `bits` of it were written (R160). -/
def State.flushWord (s : State) (q asm bits : Nat) (t : Nat := 0) : State :=
  if bits == 0 then s else ((s.append q ((bits + 7) / 8) asm t).1).count F.BRMq_CNT_FLUSH_V [q]

/-- Flushes a queue's own assembly word. -/
def State.flushQueueWord (s : State) (q : Nat) : State :=
  let x := s.queue q
  (s.setQueue q { x with asm := 0, asmBits := 0 }).flushWord q x.asm x.asmBits

/-- A read takes the head word, or finds the queue empty (R161, R162). -/
def State.readQueue (s : State) (q : Nat) : State × Option (Nat × Nat) :=
  let x := s.queue q
  match x.resetting, x.words with
  | false, w :: ws =>
    ((s.setQueue q { x with words := ws, writers := x.writers.tail, last := w, odd := !x.odd && !ws.isEmpty }).judgeMarks q, some w)
  | _, _ => ((s.count F.BRMq_CNT_UNDERRUN_V [q]).raise F.BRMq_EVT_UNDERRUN [q], none)

/-- The tags of the metadata port mapped to a queue. -/
def State.tagsOf (s : State) (q : Nat) : List Nat :=
  (List.range 8).filter fun t => s.on F.MDI_TAGMAPt_EN [t] && s.rd F.MDI_TAGMAPt_QUEUE [t] == q

/-- The assembly word of a tag, with its bits. -/
def State.tagWord (s : State) (t : Nat) : Nat × Nat := Tab.get (0, 0) s.mdi.asm t

def State.setTagWord (s : State) (t : Nat) (v : Nat × Nat) : State :=
  { s with mdi := { s.mdi with asm := Tab.set (0, 0) s.mdi.asm t v } }

/-- The partial word of a tag is flushed. -/
def State.flushTag (s : State) (t : Nat) : State :=
  let (asm, bits) := s.tagWord t
  (s.setTagWord t (0, 0)).flushWord (s.rd F.MDI_TAGMAPt_QUEUE [t]) asm bits t

/-- Every assembly word of a queue is flushed: its own and those of the tags mapped to it. -/
def State.flushAll (s : State) (q : Nat) : State := (s.tagsOf q).foldl State.flushTag (s.flushQueueWord q)

/-- BRMq_CTRL.RESET (R165): the words go, the assembly words of the tags mapped to the queue among them. -/
def State.resetQueue (s : State) (q : Nat) : State :=
  let x := s.queue q
  let s := (s.tagsOf q).foldl (fun s t => s.setTagWord t (0, 0)) s
  s.setQueue q { BrmQueue.init with last := x.last, resetting := true, wrote3 := x.wrote3 }

/-- RESET_COMPLETE. -/
def State.resetComplete (s : State) (q : Nat) : State := s.setQueue q { s.queue q with resetting := false }

/-- BRMq_WR: a host write enters the assembly word while WRITER is 0. -/
def State.brmWrite (s : State) (q v : Nat) : State :=
  if s.on F.BRMq_CFG_EN [q] && s.rd F.BRMq_CFG_WRITER [q] == 0 then (s.assemble q 32 (v % 2 ^ 32)).1 else s

/-- BRMq_CTRL: POP, FLUSH and RESET by their bits. -/
def State.brmControl (s : State) (q v : Nat) : State :=
  let s := if v % 2 == 1 then (s.readQueue q).1 else s
  let s := if v / 2 % 2 == 1 then s.flushAll q else s
  if v / 4 % 2 == 1 then s.resetQueue q else s

/-- The settings of a queue take effect at a commit: setting EN clears its counters; marks are judged by the new
values. -/
def State.brmApply (s : State) (old : Nat) (q : Nat) : State :=
  let s := if old / 2 ^ 31 == 0 && s.on F.BRMq_CFG_EN [q] then
      [F.BRMq_CNT_CROSS_V, F.BRMq_CNT_OVERRUN_V, F.BRMq_CNT_UNDERRUN_V, F.BRMq_CNT_FLUSH_V].foldl (fun s f => s.wr f 0 [q]) s
    else s
  s.judgeMarks q

/-! ## Flow-control pins (R168, R444) -/

/-- The level of FC_OUT[n]. -/
def State.fcOut (s : State) (n : Nat) : Bool :=
  let asserted :=
    if s.rd F.TST_FCHOLD_HOLD / 2 ^ n % 2 == 1 then s.rd F.TST_FCHOLD_LEVEL / 2 ^ n % 2 == 1
    else s.on F.BRM_FCn_EN [n] && (s.queue (s.rd F.BRM_FCn_QUEUE [n])).side
  asserted != s.on F.BRM_FCn_POL [n]

/-! ## The metadata port (R170 to R173) -/

/-- A halfword of a tag enters its assembly word. -/
def State.tagHalfword (s : State) (t d : Nat) : State :=
  let q := s.rd F.MDI_TAGMAPt_QUEUE [t]
  let (asm, bits) := s.tagWord t
  let asm := asm + d * 2 ^ bits
  let s := (s.setQueue q { s.queue q with wrote3 := s.upNow3 }).count F.MDI_CNT_HALFWORDS_V
  if bits + 16 < 256 then s.setTagWord t (asm, bits + 16) else ((s.setTagWord t (0, 0)).append q 32 asm t).1

/-- MDI_HALFWORD. -/
def State.mdiEdge (s : State) (t : Nat) (data : Option (BitVec 16)) (last : Bool) : State :=
  if !s.audio || !s.on F.MDI_CTRL_EN || 8 ≤ t then s
  else if !s.on F.MDI_TAGMAPt_EN [t] then
    if data.isSome then (s.count F.MDI_CNT_NOTAG_V).raise F.MDI_EVT_NOTAG else s
  else
    let s := match data with
      | some d => s.tagHalfword t d.toNat
      | none => s
    if last then s.flushTag t else s

/-- IDLE_FLUSH: nothing was written to the queue for IDLE µs (R160). -/
def State.idleFlush (s : State) (q : Nat) : State :=
  let idle := s.rd F.BRMq_CFG_IDLE [q]
  if s.on F.BRMq_CFG_EN [q] && idle != 0 && s.elapsed (s.queue q).wrote3 (idle * 3000) then
    s.flushAll q
  else s

/-- The bytes of a record word: halfword k carries byte 2k in its high half (R171). -/
def recordBytes (w : Nat) : List Byte :=
  ((List.range 16).map fun k => beBytes 2 (w / 2 ^ (16 * k) % 65536)).flatten

/-- The record that 32 bytes spell (R112). -/
def recordOf (bs : List Byte) : ObjRecord :=
  let f := fun a n => ofBe ((bs.drop a).take n)
  { obj := f 0 2, flags := f 2 2, apply := f 4 8, pos0 := f 12 4, pos1 := f 16 4, pos2 := f 20 4, gain := f 24 2
    size := f 26 2, spread := f 28 2, glide := f 30 2 }

/-- A word of a record queue is judged as a record of the metadata port (R172). -/
def State.mdiRecord (s : State) (t tag w : Nat) : State :=
  if tag < 32 then s.mdiRefuse 6 t 0xFFFF
  else
    let r := recordOf (recordBytes w)
    let (s, code, late) := s.submit 9 { body := r, seq := 0, index := t }
    if code != 0 then s.mdiRefuse code t r.obj
    else if late then (s.count F.MDI_CNT_LATE_V).raise F.MDI_EVT_LATE
    else s

/-- The record reader takes up to `n` words of a queue. -/
def State.readRecords (s : State) (q : Nat) : Nat → State × Nat
  | 0 => (s, 0)
  | n + 1 =>
    if (s.queue q).words.isEmpty || (s.queue q).resetting then (s, n + 1)
    else
      let t := (s.queue q).writers.headD 0
      let (s, w) := s.readQueue q
      match w with
      | some (tag, v) => (s.mdiRecord t tag v).readRecords q n
      | none => (s, n)

/-- The objects of a port cleared since the last boundary are released (R173). -/
def State.mdiRelease (s : State) : State :=
  if s.mdi.dropped then { s.releaseAll 9 with mdi := { s.mdi with dropped := false } } else s

/-- Every block the record reader takes up to 1,024 words of the metadata queues (R171). -/
def State.mdiTick (s : State) : State :=
  let queues := (List.range 256).filter fun q => s.on F.BRMq_CFG_EN [q] && s.rd F.BRMq_CFG_READER [q] == 2
  (queues.foldl (fun (acc : State × Nat) q => acc.1.readRecords q acc.2) (s, 1024)).1

/-- MDI_DISABLE: the port's pending records and assembly words go; its objects follow at the next boundary (R173). -/
def State.mdiOff (s : State) : State :=
  { s with
    mdi := { asm := [], dropped := true }
    scene := { s.scene with store := s.scene.store.filter (·.src != 9) } }

end Sys2Proof.Machine
end

