-- ==== Sys2Proof/Machine/Streams.lean ====
section
/-!
DEFINITION. The stream engine (R87 to R108): receive contexts with their jitter buffers, alignment groups, partner
errors, identity and route changes; transmit contexts and their packets. Presentation times are thirds of a ns from the
start of block 0, so an internal sample is a whole number of units.
-/

namespace Sys2Proof.Machine

/-! ## Rates and paths (R88, R89, R174 to R177, R181) -/

/-- The paths of R174. -/
inductive Path where
  | same
  | up (n : Nat)
  | down (m : Nat)
  | async
  deriving DecidableEq, Repr

/-- The path from a source rate to the internal rate `f`. -/
def pathOf (rate f : Nat) : Path :=
  if rate == f then .same
  else if f % rate == 0 && decide (f / rate ≤ 12) then .up (f / rate)
  else if rate % f == 0 && (rate / f == 2 || rate / f == 4) then .down (rate / f)
  else .async

/-- One internal sample in thirds of a ns. -/
def State.samp3 (s : State) : Nat := s.block3 / 32

/-- One frame of a filter's output: `k` taps over the frames read last, the newest first, for `ch` channels, in units of 2^`sh`
of a product. -/
def firRow (ch k : Nat) (tap : Nat → Int) (sh : Nat) (hist : List (List Int)) : List Int :=
  let h := hist.take k
  (List.range ch).map fun c =>
    if h.all fun r => r.getD c 0 == 0 then 0
    else roundDiv ((h.mapIdx fun i r => tap i * r.getD c 0).sum) (2 ^ sh)

/-- An exact path's output at time `t`: on the way up by `n` the phase is where `t` lies behind the newest frame, on the way down
by `m` the span holds `64 m` frames (R176). Times in 1/3,000,000 ns; `samp` is an internal sample. -/
def exactRow (path : Path) (samp : Int) (ch : Nat) (hist : List (Int × List Int)) (t : Int) : List Int :=
  let h := hist.dropWhile fun e => decide (t < e.1)
  let rows := h.map (·.2)
  match path, h with
  | .up n, e :: _ =>
    let phase := ((t - e.1) / samp).toNat
    firRow ch 64 (fun i => Config.firTap (n : Int) (64 * n) (n * i + phase)) 40 rows
  | .down m, _ => firRow ch (64 * m) (Config.firTap (-(m : Int)) (64 * m)) 40 rows
  | _, _ => rows.headD (List.replicate ch 0)

/-- A converter's coefficient for a frame `tau` behind the newest time it may read, in 1/2^20 of a sample of f_low: the 1,024
phases with linear interpolation between adjacent ones, in units of 2^-33 (R180). -/
def converterCoef (design internal tau : Nat) : Int :=
  let i := tau / 1024
  let mu : Int := ((tau % 1024 : Nat) : Int)
  Config.converterTap design internal i * (1024 - mu) + Config.converterTap design internal (i + 1) * mu

/-- A converter's output: the frames within 64 samples of f_low before time `u` (R180, R181). -/
def converterRow (design internal ch : Nat) (hist : List (Int × List Int)) (u : Int) : List Int :=
  let low := min design internal
  let h := (hist.dropWhile fun e => decide (u < e.1)).map fun e => (((u - e.1) * low * 1048576 / 3000000000000000).toNat, e.2)
  let h := h.takeWhile fun e => decide (e.1 < 64 * 1048576)
  (List.range ch).map fun c =>
    if h.all fun e => e.2.getD c 0 == 0 then 0
    else roundDiv ((h.map fun e => converterCoef design internal e.1 * e.2.getD c 0).sum) (2 ^ 33)

/-- The slot period of a rate's grid as a fraction of thirds of a ns (R175, R182). -/
def slotPeriod (rate : Nat) : Nat × Nat := (3000000000, rate)

/-- H of R177 in thirds of a ns: filters of an exact path read ahead by it. -/
def readAhead3 (rate f : Nat) : Nat :=
  match pathOf rate f with
  | .same => 0
  | .async => 0
  | _ => 96000000000 / min rate f

/-- The converter's group delay in internal samples, rounded up (R97, R181). -/
def groupDelay (rate f : Nat) : Nat := (32 * f + min rate f - 1) / min rate f + 16

/-- The newest time a converter reads for its output at `t`: half its span after the input that `t` carries, which lies the
group delay G, or in an alignment group DELAY, before `t` (R97, R181). Times in 1/3,000,000 ns; `samp` is an internal sample. -/
def converterTime (design internal : Nat) (samp : Int) (delay : Option Nat) (t : Int) : Int :=
  match delay with
  | none => t - 16 * samp
  | some d => t - d * samp + (96000000000000000 / min design internal : Nat)

/-- Ceiling division of integers by a positive number. -/
def ceilDiv (a : Int) (b : Nat) : Int := -((-a) / (b : Int))

/-- The slot nearest to time `u`, the earlier of two that are equally near (R175). -/
def slotOf (u off : Int) (rate : Nat) : Int :=
  let (num, den) := slotPeriod rate
  ceilDiv (2 * (u - off) * (den : Int) - (num : Int)) (2 * num)

/-- The first slot at or after the start of a block. -/
def slotFrom (start off : Int) (rate : Nat) : Int :=
  let (num, den) := slotPeriod rate
  ceilDiv ((start - off) * (den : Int)) num

/-- The start of block 0 in local time (R55): blocks start at CLK_EPOCH + PTP_ACQ and whole blocks after. -/
def State.origin3 (s : State) : Int := (s.time.local3 : Int) - (s.time.block * s.block3 : Nat)

/-! ## Settings (R90, R101) -/

def State.rxCfg (s : State) (n : Nat) : RxCfg :=
  { rtp := s.on F.RXn_CFG_PROTO [n], ports := s.rd F.RXn_CFG_PORTS [n], fmt := s.rd F.RXn_CFG_FMT [n]
    rate := s.rd F.RXn_CFG_RATE [n], ch := s.rd F.RXn_CFG_CH_M1 [n] + 1
    grp := if s.on F.RXn_CFG_GRP_EN [n] then some (s.rd F.RXn_CFG_GRP [n]) else none
    ident := s.rd F.RXn_ID_HI_V [n] * 2 ^ 32 + s.rd F.RXn_ID_LO_V [n]
    dst := s.rd F.RXn_DST_IP_V [n], src := s.rd F.RXn_SRC_IP_V [n]
    tagged := s.on F.RXn_MATCH_TAGGED [n], vid := s.rd F.RXn_MATCH_VID [n], udp := s.rd F.RXn_MATCH_UDP [n]
    base := s.rd F.RXn_MAP_BASE [n], mask := s.rd F.RXn_MASK_HI_V [n] * 2 ^ 32 + s.rd F.RXn_MASK_LO_V [n]
    pres := s.rdS F.RXn_PRES_OFS_V [n], rtpOfs := s.rd F.RXn_RTP_OFS_V [n]
    xfade := s.rd F.RXn_TIMING_XFADE [n], depth := s.rd F.RXn_TIMING_DEPTH [n] }

def State.txCfg (s : State) (n : Nat) : TxCfg :=
  { rtp := s.on F.TXn_CFG_PROTO [n], ports := s.rd F.TXn_CFG_PORTS [n], fmt := s.rd F.TXn_CFG_FMT [n]
    rate := s.rd F.TXn_CFG_RATE [n], ch := s.rd F.TXn_CFG_CH_M1 [n] + 1, cls := s.rd F.TXn_CFG_CLASS [n]
    dscp := s.rd F.TXn_CFG_DSCP [n], frames := s.rd F.TXn_CFG_PKT_M1 [n] + 1
    ident := s.rd F.TXn_ID_HI_V [n] * 2 ^ 32 + s.rd F.TXn_ID_LO_V [n]
    dstA := s.rd F.TXn_DST_IP_A_V [n], dstB := s.rd F.TXn_DST_IP_B_V [n]
    dmac := ofBe (leBytes 4 (s.rd F.TXn_DMAC_LO_V [n]) ++ leBytes 2 (s.rd F.TXn_DMAC_HI_V [n]))
    udp := s.rd F.TXn_UDP_SRC [n] * 65536 + s.rd F.TXn_UDP_DST [n]
    ins := s.on F.TXn_VLAN_INS [n], pcp := s.rd F.TXn_VLAN_PCP [n], vid := s.rd F.TXn_VLAN_VID [n]
    base := s.rd F.TXn_SLOT_BASE [n], txOfs := s.rd F.TXn_TX_OFS_V [n], rtpOfs := s.rd F.TXn_RTP_OFS_V [n]
    seqOfs := s.rd F.TXn_SEQ_OFS_V [n], xfade := s.rd F.TXn_XFADE_XFADE [n] }

/-- What makes the identity of a receive context (R107). -/
def RxCfg.sameId (a b : RxCfg) : Bool :=
  a.rtp == b.rtp && a.ports == b.ports && a.fmt == b.fmt && a.rate == b.rate && a.ch == b.ch && a.ident == b.ident
    && a.dst == b.dst && a.src == b.src && a.tagged == b.tagged && a.vid == b.vid && a.udp == b.udp

/-- What makes the identity of a transmit context (R107). -/
def TxCfg.sameId (a b : TxCfg) : Bool :=
  a.rtp == b.rtp && a.ports == b.ports && a.fmt == b.fmt && a.rate == b.rate && a.ch == b.ch && a.ident == b.ident
    && a.dstA == b.dstA && a.dstB == b.dstB && a.dmac == b.dmac && a.udp == b.udp

/-- The network inputs a context feeds: stream channel and input (R90, CH_MASK). -/
def RxCfg.wants (c : RxCfg) : List (Nat × Nat) :=
  ((List.range c.ch).filter fun i => c.mask / 2 ^ i % 2 == 1).map fun i => (i, (c.base + i) % 2048)

/-- The path of a context, with its rate in Hz. -/
def State.rxPath (s : State) (c : RxCfg) : Path := pathOf ((nsrHz c.rate).getD 48000) s.rateHz

def State.rxIds (s : State) (n : Nat) : List RxId := Tab.get [] s.str.rx n

def State.setRxIds (s : State) (n : Nat) (l : List RxId) : State :=
  { s with str := { s.str with rx := Tab.set [] s.str.rx n l } }

def State.txIds (s : State) (n : Nat) : List TxId := Tab.get [] s.str.tx n

def State.setTxIds (s : State) (n : Nat) (l : List TxId) : State :=
  { s with str := { s.str with tx := Tab.set [] s.str.tx n l } }

/-! ## Partner errors (R99, R103) -/

/-- Counter and event of a receive error code. -/
def rxErrFields : Nat → Field × Field
  | 1 => (F.RXn_CNT_SEQ_GAP_V, F.STR_EVT_SEQ_GAP)
  | 2 => (F.RXn_CNT_DUP_V, F.STR_EVT_DUP)
  | 3 => (F.RXn_CNT_LATE_V, F.STR_EVT_LATE)
  | 4 => (F.RXn_CNT_EARLY_V, F.STR_EVT_EARLY)
  | 5 => (F.RXn_CNT_FAR_V, F.STR_EVT_FAR)
  | 6 => (F.RXn_CNT_FORMAT_V, F.STR_EVT_FORMAT)
  | 7 => (F.RXn_CNT_CHANNELS_V, F.STR_EVT_CHANNELS)
  | 8 => (F.RXn_CNT_DISC_V, F.STR_EVT_DISC)
  | 9 => (F.RXn_CNT_UNDERRUN_V, F.STR_EVT_UNDERRUN)
  | _ => (F.RXn_CNT_STARVE_V, F.STR_EVT_STARVED)

/-- A receive error: counter, sticky bit, event and record. -/
def State.rxErr (s : State) (n code seq : Nat) (cnt : Nat := 1) : State :=
  let (c, e) := rxErrFields code
  let s := s.count c [n] cnt
  let s := s.wr F.RXn_STAT_STICKY (s.rd F.RXn_STAT_STICKY [n] ||| 2 ^ (code - 1)) [n]
  (s.raise e).strLog code 0 n seq

/-! ## Matching (R87, R90) -/

/-- The ports of a context; AAF with PORTS 3 acts as port A (R87). -/
def RxCfg.onPort (c : RxCfg) (port : Nat) : Bool :=
  (if !c.rtp && c.ports == 3 then 1 else c.ports) / 2 ^ port % 2 == 1

/-- Where a packet matches one identity (R90). -/
def RxCfg.matches (c : RxCfg) (port : Nat) (p : StreamPkt) : Bool :=
  let vlan := if c.tagged then p.vlan == some c.vid else p.vlan == none || p.vlan == some 0
  c.onPort port && p.aaf == !c.rtp && vlan &&
    (if c.rtp then
      p.dstIp == c.dst && p.udp == c.udp && (c.src == 0 || p.srcIp == c.src)
        && (c.ident / 2 ^ 63 == 0 || p.ssrc == c.ident % 2 ^ 32)
    else p.streamId == c.ident)

/-- The lowest-numbered context with a matching identity. -/
def State.rxMatch (s : State) (port : Nat) (p : StreamPkt) : Option Nat :=
  (s.str.rx.find? fun e => e.2.any fun i => i.cfg.matches port p).map (·.1)

/-- The VIDs that enabled contexts of a port match (R75). -/
def State.rxVids (s : State) (port : Nat) : List Nat :=
  (s.str.rx.map fun e => (e.2.filter fun i => i.cfg.tagged && i.cfg.onPort port).map (·.cfg.vid)).flatten

/-! ## Checks and presentation time (R91, R92, R99) -/

/-- The error code a packet's form gives: 6 FORMAT, 7 CHANNELS, or 0. -/
def RxCfg.check (c : RxCfg) (p : StreamPkt) : Nat :=
  let fmtBad :=
    if c.rtp then p.pt != c.ident / 2 ^ 32 % 128 || p.version != 2 || p.extras
    else
      let depthOk := match c.fmt with
        | 0 => p.bitDepth == 16
        | 1 => p.bitDepth == 24
        | _ => decide (1 ≤ p.bitDepth) && decide (p.bitDepth ≤ 32)
      p.subtype != 2 || p.format != aafFormat c.fmt || p.nsr != c.rate || !depthOk
  let unit := c.ch * fmtBytes c.fmt
  if fmtBad then 6
  else if (!c.rtp && p.channels != c.ch) || p.payloadLen % unit != 0 || decide (256 < p.payloadLen / unit) then 7
  else 0

/-- Presentation time in ns of the packet's first frame: R91 for AAF, R92 for RTP. -/
def RxCfg.firstTime (c : RxCfg) (p : StreamPkt) (arrival : Nat) : Int :=
  let t := (arrival : Int)
  let first :=
    if c.rtp then
      let rate := (nsrHz c.rate).getD 48000
      let mc := arrival * rate / 1000000000
      let d := toSigned 32 (ofSigned 32 ((p.time : Int) - (((mc + c.rtpOfs) % 2 ^ 32 : Nat) : Int)))
      ((arrival / 1000000000 * 1000000000 : Nat) : Int) + roundDiv ((((mc % rate : Nat) : Int) + d) * 1000000000) rate
    else t + toSigned 32 (ofSigned 32 ((p.time : Int) - t))
  first + c.pres

/-- A received sample as Q1.23 (R100). -/
def wireSample (fmt : Nat) (v : Int) : Int :=
  match fmt with
  | 0 => toSigned 16 (ofSigned 16 v) * 256
  | 1 => toSigned 24 (ofSigned 24 v)
  | _ => satQ23 (roundDiv (toSigned 32 (ofSigned 32 v)) 256)

/-- The low 16 or 8 bits of a sequence number's distance. -/
def seqDist (rng : Nat) (a b : Nat) : Nat := (a + rng - b % rng) % rng

/-! ## One packet on one identity (R81, R94 to R99) -/

/-- The seamless merge (R81): the identity after it, whether the packet is a remembered one, and whether it is too old. -/
def RxId.merge (i : RxId) (seq : Nat) : RxId × Bool × Bool :=
  if !(i.cfg.rtp && i.cfg.ports == 3) then (i, false, false)
  else match i.seamHigh with
    | none => ({ i with seamHigh := some seq, seam := [seq] }, false, false)
    | some h =>
      if i.seam.contains seq then (i, true, false)
      else
        let d := toSigned 16 (ofSigned 16 ((seq : Int) - (h : Int)))
        if 0 < d then
          ({ i with seamHigh := some seq, seam := seq :: i.seam.filter fun q => decide (seqDist 65536 seq q ≤ 1024) },
            false, false)
        else if d < -1024 then (i, false, true)
        else ({ i with seam := seq :: i.seam }, false, false)

/-- The sequence rules of R99: gap, discontinuity, reorder. Times in thirds of a ns. -/
def State.rxSequence (s : State) (n : Nat) (i : RxId) (seq : Nat) (t0 tEnd period : Int) : State × RxId :=
  let rng := if i.cfg.rtp then 65536 else 256
  let next := { i with expected := some ((seq + 1) % rng), prevEnd := some tEnd }
  match i.expected with
  | none => (s, next)
  | some e =>
    let d := seqDist rng seq e
    if d == 0 then
      let disc := match i.prevEnd with
        | some pe => decide (period < ((t0 - pe).natAbs : Int))
        | none => false
      (if disc then s.rxErr n 8 seq else s, next)
    else if d < rng / 2 then (s.rxErr n 1 seq d, next)
    else (s.count F.RXn_CNT_REORDER_V [n], i)

/-- Stores the frames that lie in the window. `u` is the time of the first frame, judged H earlier on a filtered path. -/
def State.rxStore (s : State) (i : RxId) (rows : List (Int × List Int)) : RxId :=
  match rows with
  | [] => i
  | (u0, _) :: _ =>
    let rate := (nsrHz i.cfg.rate).getD 48000
    let off := match i.off with
      | some o => o
      | none => match s.rxPath i.cfg with
        | .up n => (ceilDiv (2 * u0 - s.samp3) (2 * s.samp3)) % (n : Int) * s.samp3
        | .async => u0
        | _ => 0
    let keyed := rows.map fun r => ((slotOf r.1 off rate).toNat, r.2.map (wireSample i.cfg.fmt))
    let first := match i.first with
      | some f => some f
      | none => (keyed.head?).map (·.1)
    { i with
      off := some off, first := first, lastStored := s.time.block
      buf := keyed.foldl (fun b kv => Tab.put b kv.1 (some kv.2)) i.buf
      st := 2 }

/-- A packet on one identity, merged already; one that the merge finds too old is late (R81). The first packet that an identity sees
after an acquisition is a discontinuity (R56). -/
def State.rxPacket (s : State) (n : Nat) (i : RxId) (p : StreamPkt) (arrival : Nat) (tooOld : Bool) : State × RxId :=
  let c := i.cfg
  let seq := p.seq % (if c.rtp then 65536 else 256)
  let code := c.check p
  let count := p.payloadLen / (c.ch * fmtBytes c.fmt)
  if code != 0 then (s.rxErr n code seq, i)
  else if tooOld then ((s.rxErr n 3 seq).count F.RXn_CNT_LATE_SAMP_V [n] count, i)
  else if i.last32.contains seq then (s.rxErr n 2 seq, i)
  else
    let s := if i.jumped then s.rxErr n 8 seq else s
    let i := if i.jumped then { i with jumped := false, prevEnd := none } else i
    let rate := (nsrHz c.rate).getD 48000
    let t0 := 3 * c.firstTime p arrival - s.origin3
    let at' := fun k : Nat => t0 + roundDiv (3000000000 * (k : Int)) rate
    let h : Int := readAhead3 rate s.rateHz
    let b3 : Int := s.block3
    let cb : Int := s.time.block
    let ks := List.range count
    let blk := fun k : Nat => (at' k - h) / b3
    let arr3 : Int := 3 * (arrival : Int) - s.origin3
    let far := ks.any fun k => decide (arr3 + 6000000000 < at' k - h)
    let early := ks.any fun k => decide (cb + c.depth < blk k)
    if far || early then (s.rxErr n (if far then 5 else 4) seq, i)
    else
      let late := ks.filter fun k => decide (blk k < cb)
      let keep := ks.filter fun k => !decide (blk k < cb)
      let (s, i) := s.rxSequence n i seq t0 (at' count) (3000000000 / rate)
      let i := { i with last32 := (seq :: i.last32).take 32 }
      let s := if late.isEmpty then s else (s.rxErr n 3 seq).count F.RXn_CNT_LATE_SAMP_V [n] late.length
      if keep.isEmpty then (s, i)
      else
        let rows := keep.map fun k => (at' k - h, (p.frames[k]?).getD [])
        (s.count F.RXn_CNT_PKTS_V [n], s.rxStore i rows)

/-- Each identity of the context takes the packet; also whether the merge of one of them remembers it. -/
def State.rxEach (s : State) (n port : Nat) (p : StreamPkt) (arrival : Nat) : List RxId → State × List RxId × Bool
  | [] => (s, [], false)
  | i :: rest =>
    let (s, i, seen) :=
      if i.cfg.matches port p then
        let (i, dup, old) := i.merge (p.seq % 65536)
        if dup then (s, i, !i.shadow)
        else
          let (t, i) := s.rxPacket n i p arrival old
          (if i.shadow then s else t, i, false)
      else (s, i, false)
    let (s, l, others) := s.rxEach n port p arrival rest
    (s, i :: l, seen || others)

/-- STREAM_PACKET: the packet goes to the lowest-numbered context that it matches; a copy that the merge remembers counts once on
its port (R81). -/
def State.rxStream (s : State) (port : Nat) (p : StreamPkt) (arrival : Nat) : State :=
  if !s.audio || !s.linkUp port then s
  else match s.rxMatch port p with
    | none => s
    | some n =>
      let (s, l, dup) := s.rxEach n port p arrival (s.rxIds n)
      (if dup then s.macCount port 22 else s).setRxIds n l

/-- STARVED: a context in RUN has stored no packet for STALE blocks (R96). -/
def State.rxStarved (s : State) (n : Nat) : State :=
  let stale := s.rd F.STR_CTRL_STALE
  let due := fun i : RxId => !i.shadow && i.st == 2 && decide (i.lastStored + stale ≤ s.time.block)
  match (s.rxIds n).find? due with
  | none => s
  | some i =>
    let s := s.setRxIds n ((s.rxIds n).map fun j => if due j then { j with st := 3 } else j)
    s.rxErr n 10 (i.expected.getD 0)

/-! ## Reading on the block grid (R94 to R98) -/

/-- DELAY of an alignment group: the largest converter group delay of its members, rounded up (R97). -/
def State.streamGroupDelay (s : State) (g : Nat) : Nat :=
  (s.str.rx.map fun e => (e.2.filter fun i => !i.dying && i.cfg.grp == some g && s.rxPath i.cfg == .async).map
    fun i => groupDelay ((nsrHz i.cfg.rate).getD 48000) s.rateHz).flatten.foldl max 0

/-- The slot of an identity at internal sample `m` from block 0, by its time. -/
def RxId.slotSample (i : RxId) (samp3 k : Nat) : Int :=
  (i.off.getD 0 + roundDiv (3000000000 * (k : Int)) ((nsrHz i.cfg.rate).getD 48000)) / (samp3 : Int)

/-- A frame `r` slots behind the first present one, in the ramp of 64 internal samples of R98. -/
def rampRow (rate f r : Nat) (row : List Int) : List Int :=
  let g := min (64 * rate) (r * f + rate)
  row.map fun x => roundDiv (x * (g : Int)) (64 * rate)

/-- One slot read: the identity after it, the row it gives, and whether an underrun begins (2) or goes on (1). A slot before the
first frame stored is nothing expected. -/
def State.rxSlot (s : State) (i : RxId) (k : Nat) : RxId × List Int × Nat :=
  let silent := List.replicate i.cfg.ch 0
  let rate := (nsrHz i.cfg.rate).getD 48000
  match (i.buf.find? fun e => e.1 == k).map (·.2) with
  | some row =>
    let i := { i with buf := Tab.put i.buf k none, inRun := false }
    let i := if i.gap then { i with gap := false, fadeIn := some 0 } else i
    match i.fadeIn with
    | none => (i, row, 0)
    | some r => ({ i with fadeIn := if (r + 1) * s.rateHz < 64 * rate then some (r + 1) else none }, rampRow rate s.rateHz r row, 0)
  | none =>
    match i.first with
    | none => (i, silent, 0)
    | some f =>
      if decide (k < f) then (i, silent, 0)
      else
        let gone := { i with gap := true, fadeIn := none }
        if i.st == 2 && decide ((i.countFrom : Int) ≤ i.slotSample s.samp3 k) then
          ({ gone with inRun := true }, silent, if i.inRun then 1 else 2)
        else (gone, silent, 0)

/-- Reads `n` slots from `k` on: the rows, how many were underruns, and whether a run of them began. -/
def State.rxSlots (s : State) : RxId → Nat → Nat → RxId × List (List Int) × Nat × Bool
  | i, _, 0 => (i, [], 0, false)
  | i, k, n + 1 =>
    let (i, row, u) := s.rxSlot i k
    let (i, rows, m, b) := s.rxSlots i (k + 1) n
    (i, row :: rows, (if u == 0 then m else m + 1), b || u == 2)

/-- The frames a path keeps for its later outputs: four times its span, and the longest group delay. -/
def histKeep : Nat := 2400

/-- The 32 rows that a filter or converter gives in block `b`. `delay`: DELAY of the member's alignment group. -/
def State.pathRows (s : State) (path : Path) (design : Nat) (delay : Option Nat) (ch : Nat) (hist : List (Int × List Int)) (b : Nat) :
    List (List Int) :=
  let samp : Int := (s.samp3 : Int) * 1000000
  if hist.all fun e => e.2.all (· == 0) then List.replicate 32 (List.replicate ch 0)
  else (List.range 32).map fun j =>
    let t : Int := ((32 * b + j : Nat) : Int) * samp
    match path with
    | .async => converterRow design s.rateHz ch hist (converterTime design s.rateHz samp delay t)
    | p => exactRow p samp ch hist t

/-- The 32 rows an identity presents in block `b`, after the ramps of R98 and its path. -/
def State.rxRows (s : State) (n : Nat) (i : RxId) (b : Nat) (delay : Option Nat) : State × RxId × List (List Int) :=
  let silent := List.replicate i.cfg.ch (0 : Int)
  match i.off with
  | none => (s, i, List.replicate 32 silent)
  | some off =>
    let rate := (nsrHz i.cfg.rate).getD 48000
    let lo := (slotFrom ((b * s.block3 : Nat) : Int) off rate).toNat
    let hi := (slotFrom (((b + 1) * s.block3 : Nat) : Int) off rate).toNat
    let i := { i with buf := i.buf.filter fun e => decide (lo ≤ e.1) }
    let (i, rows, miss, began) := s.rxSlots i lo (hi - lo)
    let s := if i.shadow then s else if began then s.rxErr n 9 (i.expected.getD 0) miss else s.count F.RXn_CNT_UNDERRUN_V [n] miss
    if s.rxPath i.cfg == .same then (s, i, rows)
    else
      let timed := rows.mapIdx fun k r => (off * 1000000 + roundDiv (3000000000000000 * (((lo + k : Nat) : Int))) rate, r)
      let i := { i with hist := (timed.reverse ++ i.hist).take histKeep }
      (s, i, s.pathRows (s.rxPath i.cfg) rate delay i.cfg.ch i.hist b)

/-- The group delay of an asynchronous serial receive port of an alignment group (R181). -/
def State.portGroupDelay (s : State) (g : Nat) : Nat :=
  ((List.range 32).map fun p =>
    if s.on F.SAPp_CFG_EN [p] && !s.on F.SAPp_CFG_DIR [p] && !s.on F.SAPp_CFG_SYNC [p] && s.on F.SAPp_CFG_GRP_EN [p]
      && s.rd F.SAPp_CFG_GRP [p] == g then groupDelay ((nsrHz (s.rd F.SAPp_CFG_RATE [p])).getD 48000) s.rateHz
    else 0).foldl max 0

/-- DELAY of an alignment group over its streams and serial ports (R97). -/
def State.groupDelayOf (s : State) (g : Nat) : Nat := max (s.streamGroupDelay g) (s.portGroupDelay g)

/-- An identity's contribution to its inputs: its rows behind the group delay, times its fades. A converter has taken the group
delay into its own. -/
def State.rxContribute (s : State) (converted : Bool) (i : RxId) (rows : List (List Int)) : RxId × List (Nat × List Int) :=
  let dly := match i.cfg.grp with
    | some g => if converted then 0 else s.groupDelayOf g
    | none => 0
  let past := i.past ++ rows
  let now := ((List.replicate (32 + dly - past.length) [] ++ past).drop (past.length - (32 + dly))).take 32
  let keep := past.drop (past.length - 512)
  let f := i.fade.block
  let out := i.routes.map fun (c, inp, r) =>
    (inp, List.zipWith (fun (g : Int) (x : Int) => roundDiv (x * g) (2 ^ 40))
      (List.zipWith (· * ·) f r.block) (now.map fun row => row.getD c 0))
  ({ i with
      past := keep, fade := i.fade.step
      routes := (i.routes.map fun (c, inp, r) => (c, inp, r.step)).filter fun (_, _, r) => r.moving || r.g1 != 0 }, out)

/-- Adds contributions into a table of blocks by channel number. -/
def addInto (t : Tab (List Int)) : List (Nat × List Int) → Tab (List Int)
  | [] => t
  | (k, b) :: rest => addInto (Tab.put t k (some (addBlock (Tab.get zeros32 t k) b))) rest

/-- All identities of a context present block `b`; one whose fade has ended reads no more. -/
def State.rxContext (s : State) (n b : Nat) : List RxId → State × List RxId × List (Nat × List Int)
  | [] => (s, [], [])
  | i :: rest =>
    if i.dying && !i.shadow && !i.fade.moving then
      let (s, l, outs) := s.rxContext n b rest
      (s, { i with fade := i.fade.step } :: l, outs)
    else
      let (s, i, rows) := s.rxRows n i b (i.cfg.grp.map s.groupDelayOf)
      let (i, out) := s.rxContribute (s.rxPath i.cfg == .async) i rows
      let (s, l, outs) := s.rxContext n b rest
      (s, i :: l, out ++ outs)

/-- The network input channels in block `b`: the contributions of every context, saturated at Q1.23. -/
def State.networkInputs (s : State) (b : Nat) : State × Tab (List Int) :=
  let step := fun (acc : State × Tab (List Int)) (e : Nat × List RxId) =>
    let (s, l, outs) := acc.1.rxContext e.1 b (acc.1.rxIds e.1)
    (s.setRxIds e.1 (l.filter fun i => !i.shadow || !i.routes.isEmpty), addInto acc.2 outs)
  let (s, t) := s.str.rx.foldl step (s, [])
  (s, t.map fun e => (e.1, e.2.map satQ23))

/-! ## Changes (R96, R105 to R108) -/

/-- Clears the counters of a receive context (R108). -/
def State.rxClear (s : State) (n : Nat) : State :=
  [F.RXn_CNT_PKTS_V, F.RXn_CNT_SEQ_GAP_V, F.RXn_CNT_DUP_V, F.RXn_CNT_REORDER_V, F.RXn_CNT_LATE_V,
    F.RXn_CNT_LATE_SAMP_V, F.RXn_CNT_EARLY_V, F.RXn_CNT_FAR_V, F.RXn_CNT_FORMAT_V, F.RXn_CNT_CHANNELS_V,
    F.RXn_CNT_DISC_V, F.RXn_CNT_UNDERRUN_V, F.RXn_CNT_STARVE_V].foldl (fun s f => s.wr f 0 [n]) s

/-- A route takes a target; a ramp that runs to that target already goes on (R23). -/
def Ramp.toward (r : Ramp) (g : Int) (n : Nat) : Ramp := if r.g1 == g then r else r.to g n

/-- New targets for the routes of a context: routes no longer wanted ramp down, new ones ramp up (R106). -/
def reroute (routes : List (Nat × Nat × Ramp)) (want : List (Nat × Nat)) (n : Nat) : List (Nat × Nat × Ramp) :=
  let old := routes.map fun (c, k, r) => (c, k, r.toward (if want.contains (c, k) then unity else 0) n)
  let fresh := want.filter fun w => !(routes.any fun (c, k, _) => (c, k) == w)
  old ++ fresh.map fun (c, k) => (c, k, (Ramp.still 0).to unity n)

/-- A change of alignment group or PRES_OFS: every channel crossfades from the old source, which goes on as a shadow, to
the new one (R106). The frames that a new PRES_OFS places start with the packets accepted from now on (log entry 32). -/
def RxId.replaced (i : RxId) (c : RxCfg) (block xs : Nat) : List RxId :=
  let new := { i with cfg := c, routes := c.wants.map fun (a, b) => (a, b, (Ramp.still 0).to unity xs) }
  let moved := { new with
    buf := [], hist := [], first := none, fadeIn := none, gap := false, inRun := false, countFrom := 32 * block + xs
    prevEnd := i.prevEnd.map (· + 3 * (c.pres - i.cfg.pres)) }
  [if i.cfg.pres == c.pres then new else moved,
   { i with dying := true, shadow := true, routes := i.routes.map fun (a, b, r) => (a, b, r.toward 0 xs) }]

/-- The settings of receive context `n` take effect at a commit; `hard` before audio starts (R374 step 10). -/
def State.rxApply (s : State) (hard : Bool) (n : Nat) : State :=
  let c := s.rxCfg n
  let en := s.on F.RXn_CFG_EN [n]
  let ids := s.rxIds n
  let xs := if hard then 0 else s.rampSamples c.xfade
  let retire := ids.map fun i => if i.dying then i else { i with dying := true, fade := i.fade.to 0 xs }
  match ids.find? fun i => !i.dying with
  | some i =>
    if en && i.cfg.sameId c then
      if i.cfg.grp == c.grp && i.cfg.pres == c.pres then
        s.setRxIds n (ids.map fun j => if j.dying then j else { j with cfg := c, routes := reroute j.routes c.wants xs })
      else s.setRxIds n (i.replaced c s.time.block xs ++ ids.filter (·.dying))
    else if en then
      let born : RxId := { cfg := c, fade := (Ramp.still 0).to unity xs, countFrom := 32 * s.time.block + xs
                           routes := c.wants.map fun (a, b) => (a, b, Ramp.still unity) }
      s.setRxIds n (born :: retire)
    else s.setRxIds n retire
  | none =>
    if en then
      let born : RxId := { cfg := c, fade := if hard then Ramp.still unity else (Ramp.still 0).to unity xs
                           countFrom := 32 * s.time.block + xs
                           routes := c.wants.map fun (a, b) => (a, b, Ramp.still unity) }
      (s.rxClear n).setRxIds n (born :: ids)
    else s

/-- The transmit channels of a context with the bus each slot carries. -/
def State.txWants (s : State) (c : TxCfg) : List (Nat × Nat) :=
  ((List.range c.ch).filter fun i => s.on F.STR_TXSLOTs_EN [c.base + i]).map
    fun i => (i, s.rd F.STR_TXSLOTs_BUS [c.base + i])

/-- The number of the first packet whose first frame is presented at egress in block `b` or later (R102). -/
def State.txFirst (s : State) (c : TxCfg) (b : Nat) : Nat :=
  let rate := (nsrHz c.rate).getD 48000
  let frames := (b * 32 * rate + s.rateHz - 1) / s.rateHz
  (frames + c.frames - 1) / c.frames

/-- The settings of transmit context `n` take effect at a commit. -/
def State.txApply (s : State) (hard : Bool) (n : Nat) : State :=
  let c := s.txCfg n
  let en := s.on F.TXn_CFG_EN [n]
  let ids := s.txIds n
  let xs := if hard then 0 else s.rampSamples c.xfade
  let retire := ids.map fun i => if i.dying then i else { i with dying := true, fade := i.fade.to 0 xs }
  let born : TxId := { cfg := c, fade := if hard then Ramp.still unity else (Ramp.still 0).to unity xs
                       next := s.txFirst c s.time.block
                       routes := (s.txWants c).map fun (a, b) => (a, b, Ramp.still unity) }
  match ids.find? fun i => !i.dying with
  | some i =>
    if en && i.cfg.sameId c then
      s.setTxIds n (ids.map fun j => if j.dying then j else { j with
        cfg := c, routes := reroute j.routes (s.txWants c) xs
        next := if c.frames == j.cfg.frames then j.next else s.txFirst c s.time.block })
    else if en then s.setTxIds n (born :: retire)
    else s.setTxIds n retire
  | none =>
    if en then
      let s := [F.TXn_CNT_PKTS_V, F.TXn_CNT_TX_LATE_V, F.TXn_CNT_TX_DOWN_V].foldl (fun s f => s.wr f 0 [n]) s
      s.setTxIds n (born :: ids)
    else s

/-- IDENTITY_FADE_END: old identities whose fade has ended are released (R107). -/
def State.fadeEnd (s : State) (tx : Bool) (n : Nat) : State :=
  if tx then s.setTxIds n ((s.txIds n).filter fun i => !i.dying || i.fade.rest != 0)
  else s.setRxIds n ((s.rxIds n).filter fun i => !i.dying || i.shadow || i.fade.rest != 0)

/-! ## Transmit (R101 to R103) -/

/-- The group delay H of a transmit context's path in thirds of a ns (R178). -/
def State.txDelay3 (s : State) (c : TxCfg) : Nat := readAhead3 ((nsrHz c.rate).getD 48000) s.rateHz

/-- A transmit channel's block: the egress blocks of its buses times its fades. -/
def State.txChannel (i : TxId) (egress : Tab (List Int)) (c : Nat) : List Int :=
  let parts := (i.routes.filter fun r => r.1 == c).map fun (_, bus, r) =>
    List.zipWith (fun (g : Int) (x : Int) => roundDiv (x * g) (2 ^ 40))
      (List.zipWith (· * ·) i.fade.block r.block) (Tab.get zeros32 egress bus)
  (parts.foldl addBlock zeros32).map satQ23

/-- The transmit contexts take the egress block `b`; the longest filter reads 24 blocks. -/
def State.txBlock (s : State) (b : Nat) (egress : Tab (List Int)) : State :=
  let one := fun i : TxId =>
    let rows := (List.range i.cfg.ch).map (State.txChannel i egress)
    { i with
      sent := ((b, rows) :: i.sent).take 36, fade := i.fade.step
      routes := (i.routes.map fun (c, k, r) => (c, k, r.step)).filter fun (_, _, r) => r.moving || r.g1 != 0 }
  { s with str := { s.str with tx := s.str.tx.map fun e => (e.1, e.2.map one) } }

/-- Channel `c` of internal sample `m`: what was presented at egress, nothing before the identity began, and a free value where
the block has not been presented yet (log entry 10). -/
def State.txSample (s : State) (n : Nat) (i : TxId) (c : Nat) (m : Int) : Int :=
  match (i.sent.find? fun e => (e.1 : Int) == m / 32).map (·.2) with
  | some rows => (rows.getD c []).getD (m % 32).toNat 0
  | none =>
    if (match i.sent.head? with | some e => decide (m / 32 < (e.1 : Int)) | none => false) then 0
    else s.drawIn .filter [(n : Int), (c : Int), m] (-8388608) 8388607

/-- The internal samples that an output filter reads for output frame `f`, the newest first, and its taps. The frame represents
internal sample f·N, or f / M, and the filter ends half its span behind it (R178). -/
def outFilter (rate f : Nat) (frame : Nat) : List Int × (Nat → Int) :=
  if rate ≤ f then
    let n := f / rate
    ((List.range (64 * n)).map fun k => ((frame * n + 32 * n : Nat) : Int) - k, Config.firTap (-(n : Int)) (64 * n))
  else
    let m := rate / f
    ((List.range 64).map fun k => ((frame / m + 32 : Nat) : Int) - k, fun k => Config.firTap (m : Int) (64 * m) (m * k + frame % m))

/-- A sample on the wire (R101). -/
def sendSample (fmt : Nat) (v : Int) : Int :=
  match fmt with
  | 0 => clampInt (-32768) 32767 (roundDiv v 256)
  | 1 => v
  | _ => v * 256

/-- The frames of packet `p`. -/
def State.txFrames (s : State) (n : Nat) (i : TxId) (p : Nat) : List (List Int) :=
  let c := i.cfg
  let rate := (nsrHz c.rate).getD 48000
  (List.range c.frames).map fun k =>
    let f := p * c.frames + k
    let row := if rate == s.rateHz then (List.range c.ch).map fun ch => s.txSample n i ch f
      else
        let (ms, tap) := outFilter rate s.rateHz f
        (firRow c.ch ms.length tap 40 (ms.map fun m => (List.range c.ch).map fun ch => s.txSample n i ch m)).map satQ23
    row.map (sendSample c.fmt)

/-- Egress presentation time of frame `f` in thirds of a ns of local time: its place on the grid, plus H (R102, R178). -/
def State.txTime3 (s : State) (c : TxCfg) (f : Nat) : Int :=
  let rate := (nsrHz c.rate).getD 48000
  s.origin3 + roundDiv (3000000000 * (f : Int)) rate + s.txDelay3 c

/-- Packet `p` of an identity for a port (R101, R102). -/
def State.txBuild (s : State) (n : Nat) (i : TxId) (p port : Nat) : TxPacket :=
  let c := i.cfg
  let rate := (nsrHz c.rate).getD 48000
  let due3 := (s.txTime3 c (p * c.frames)).toNat + 3 * c.txOfs
  { ctx := n, rtp := c.rtp, ident := if c.rtp then c.ident % 2 ^ 32 else c.ident, pt := c.ident / 2 ^ 32 % 128
    fmt := c.fmt, rate := c.rate, ch := c.ch
    seq := (p + c.seqOfs) % (if c.rtp then 65536 else 256)
    time := (if c.rtp then due3 * rate / 3000000000 + c.rtpOfs else due3 / 3) % 2 ^ 32
    due3 := due3, sip := s.rd F.NP_IPV4_V [port]
    dst := if port == 0 then c.dstA else c.dstB, dmac := c.dmac, udp := c.udp, dscp := c.dscp
    tag := if c.ins then some (c.pcp, c.vid) else none
    frames := s.txFrames n i p }

/-- Bytes of the frame of a packet, with its FCS. -/
def TxPacket.length (p : TxPacket) : Nat :=
  let body := (if p.rtp then 20 + 8 + 12 else 24) + p.frames.length * p.ch * fmtBytes p.fmt
  max 64 (14 + (if p.tag.isSome then 4 else 0) + body + 4)

/-! ## The frame of a packet (R82, R101) -/

/-- The samples of a packet, most significant byte first. -/
def TxPacket.samples (p : TxPacket) : List Byte :=
  let n := fmtBytes p.fmt
  (p.frames.map fun r => (r.map fun v => beBytes n (ofSigned (8 * n) v)).flatten).flatten

/-- The 24-byte header of an AAF packet (IEEE 1722-2016): sv and tv 1, version 0, mr 0, tu 0, sp 0, evt 0. -/
def TxPacket.aaf (p : TxPacket) : List Byte :=
  let depth := match p.fmt with | 0 => 16 | 1 => 24 | _ => 32
  beBytes 1 0x02 ++ beBytes 1 0x81 ++ beBytes 1 p.seq ++ beBytes 1 0 ++ beBytes 8 p.ident ++ beBytes 4 p.time
    ++ beBytes 1 (aafFormat p.fmt) ++ beBytes 2 (p.rate * 4096 + p.ch) ++ beBytes 1 depth ++ beBytes 2 p.samples.length
    ++ beBytes 2 0

/-- The one's complement sum of 16-bit words, as the IPv4 header checksum takes it. -/
def ipChecksum (bs : List Byte) : Nat :=
  let sum := ((List.range (bs.length / 2)).map fun k => ofBe ((bs.drop (2 * k)).take 2)).sum
  let sum := sum % 65536 + sum / 65536
  65535 - (sum % 65536 + sum / 65536)

/-- The IPv4 header: DSCP, identification 0, DF 1, TTL 64, UDP. -/
def TxPacket.ipHeader (p : TxPacket) (sum : Nat) : List Byte :=
  beBytes 1 0x45 ++ beBytes 1 (p.dscp * 4) ++ beBytes 2 (40 + p.samples.length) ++ beBytes 2 0 ++ beBytes 2 0x4000
    ++ beBytes 1 64 ++ beBytes 1 17 ++ beBytes 2 sum ++ beBytes 4 p.sip ++ beBytes 4 p.dst

/-- IPv4, UDP and RTP headers: RTP version 2 without padding, extension or CSRC, marker 0. The manual gives no UDP checksum
(log entry 158). -/
def TxPacket.rtpHeaders (p : TxPacket) : List Byte :=
  p.ipHeader (ipChecksum (p.ipHeader 0)) ++ beBytes 4 p.udp ++ beBytes 2 (20 + p.samples.length)
    ++ beBytes 2 (Config.free .readValue [3, (p.ctx : Int), (p.seq : Int)] % 65536)
    ++ beBytes 1 0x80 ++ beBytes 1 p.pt ++ beBytes 2 p.seq ++ beBytes 4 p.time ++ beBytes 4 p.ident

/-- The frame that carries a packet from one address to another, without padding and FCS. -/
def TxPacket.wire (p : TxPacket) (dmac smac : Nat) : List Byte :=
  let body := beBytes 2 (if p.rtp then 0x0800 else 0x22F0) ++ (if p.rtp then p.rtpHeaders else p.aaf) ++ p.samples
  let head := beBytes 6 dmac ++ beBytes 6 smac
  match p.tag with
  | some (pcp, vid) => head ++ beBytes 2 0x8100 ++ beBytes 2 (pcp * 8192 + vid) ++ body
  | none => head ++ body

/-! ## Release (R78, R102, R103) -/

/-- The level and the priority of a transmit context's frames (R78, R80). -/
def State.txLevel (s : State) (port : Nat) (c : TxCfg) : Nat × Nat :=
  match c.cls with
  | 1 => (1, s.rd F.NP_CBS_A_PCP [port])
  | 2 => (2, s.rd F.NP_CBS_B_PCP [port])
  | _ => (3, if c.ins then c.pcp else 0)

/-- A packet is due on a port: to its group's or its resolved address, at its class. -/
def State.launch (s : State) (port : Nat) (c : TxCfg) (p : TxPacket) : State :=
  let (s, mac) :=
    if !p.rtp then (s, some p.dmac)
    else if isGroup p.dst then (s, some (groupMac p.dst))
    else s.resolve port p.dst
  match mac with
  | none => s
  | some m =>
    let (level, prio) := s.txLevel port c
    s.sendFrame port level prio m p.length p.tag.isSome (.streamPacket port m p (p.wire m (s.macAddr port)))

/-- One port of a released packet: not launched while the claim gate is closed (R342), down, or due. -/
def State.release (s : State) (n : Nat) (c : TxCfg) (p : TxPacket) (port : Nat) : State :=
  if !s.gate then s
  else if !s.linkUp port then (s.macCount port 39).txErr n 12 p.seq
  else s.launch port c p

/-- The ports a context names; AAF with code 3 acts as port A. -/
def TxCfg.portList (c : TxCfg) : List Nat :=
  if !c.rtp && c.ports == 3 then [0] else (List.range 2).filter fun p => c.ports / 2 ^ p % 2 == 1

/-- The next packet of one identity is released when its time has come: its first frame is presented at egress in the
present block or before. -/
def State.txReleaseId (s : State) (n : Nat) (i : TxId) : State × TxId :=
  if s.txTime3 i.cfg (i.next * i.cfg.frames) < ((s.time.local3 + s.block3 : Nat) : Int) then
    let i' := { i with next := i.next + 1 }
    (i.cfg.portList.foldl (fun s port => s.release n i.cfg (s.txBuild n i i.next port) port) s, i')
  else (s, i)

/-- Every identity of a context releases its next packet. -/
def State.txReleaseAll (s : State) (n : Nat) : List TxId → State × List TxId
  | [] => (s, [])
  | i :: rest =>
    let (s, i) := s.txReleaseId n i
    let (s, l) := s.txReleaseAll n rest
    (s, i :: l)

/-- PACKET_RELEASE. -/
def State.packetRelease (s : State) (n : Nat) : State :=
  if !s.audio then s else let (s, l) := s.txReleaseAll n (s.txIds n); s.setTxIds n l

/-- A waiting frame carries a packet of context `n` that is late at the end of the present block. -/
def State.lateOf (s : State) (n : Nat) (f : TxWait) : Option TxPacket :=
  match f.out with
  | .streamPacket _ _ k _ => if k.ctx == n && k.late ((s.time.local3 + s.block3 : Nat) : Int) then some k else none
  | _ => none

/-- TX_LATE: a packet of the context that still waits when local time has reached its time field is discarded (R103). -/
def State.txLate (s : State) (n port : Nat) : State :=
  let x := s.netPort port
  match x.txq.find? fun f => (s.lateOf n f).isSome with
  | none => s
  | some f => (s.setNetPort port { x with txq := x.txq.erase f }).txErr n 11 (((s.lateOf n f).map (·.seq)).getD 0)

/-! ## Multicast groups (R83) -/

/-- The groups a port has joined: those of enabled receive contexts, the PTP groups in use, and the host groups. -/
def State.groups (s : State) (port : Nat) : List Nat :=
  let rx := (s.str.rx.map fun e => (e.2.filter fun i =>
    i.cfg.rtp && isGroup i.cfg.dst && i.cfg.onPort port).map (·.cfg.dst)).flatten
  let ptp := if s.rd F.PTP_CTRL_MODE [port] != 0 && s.rd F.PTP_CTRL_PROFILE [port] == 0 then
      if s.peerDelay port then [0xE0000181, 0xE000006B] else [0xE0000181]
    else []
  let host := ((List.range 16).map fun g => s.rd F.NP_HGROUPg_V [port, g]).filter (· != 0)
  (rx ++ ptp ++ host).eraseDups

/-- The source list a report gives for a group: INCLUDE of the sources that its contexts name; EXCLUDE with no sources where one of
them takes any source, and for PTP and host groups. A group that has been left reports INCLUDE of none. -/
def State.groupSource (s : State) (port g : Nat) : Option (List Nat) :=
  let l := (s.str.rx.map fun e => (e.2.filter fun i =>
    i.cfg.rtp && i.cfg.dst == g && i.cfg.onPort port).map (·.cfg.src)).flatten
  if l.contains 0 then none
  else if l.isEmpty then (if (s.groups port).contains g then none else some [])
  else some l.eraseDups

/-- Joins and leaves since the last look schedule two unsolicited reports each. -/
def State.groupsChange (s : State) (port : Nat) : State :=
  let now := s.groups port
  let x := s.netPort port
  if now == x.joined then s
  else
    let diff := now.filter (!x.joined.contains ·) ++ x.joined.filter (!now.contains ·)
    s.setNetPort port { x with joined := now, reports := diff.foldl (fun t g => Tab.put t g (some (2, none))) x.reports }

/-- Sends a membership report to 224.0.0.22. -/
def State.sendReport (s : State) (port : Nat) (groups : List Nat) : State :=
  let recs := groups.map fun g => (g, s.groupSource port g)
  let len := 14 + 24 + 8 + (recs.map fun r => 8 + 4 * (r.2.getD []).length).sum + 4
  s.reply port (groupMac 0xE0000016) len (.igmpReport port recs)

/-- IGMP_REPORT: the answer to a query. -/
def State.igmpReport (s : State) (port : Nat) : State :=
  let x := s.netPort port
  if s.responder port F.NP_RESP_IGMP_EN ∧ x.queryPending then
    (s.setNetPort port { x with queryPending := false }).sendReport port (s.groups port)
  else s

/-- UNSOLICITED_REPORT: one of the two reports of a join or leave, 1 s apart. -/
def State.unsolicited (s : State) (port g : Nat) : State :=
  let x := s.netPort port
  match x.reports.lookup g with
  | none => s
  | some (n, last3) =>
    if s.responder port F.NP_RESP_IGMP_EN && s.dueSince last3 3000000000 then
      (s.setNetPort port { x with
        reports := Tab.put x.reports g (if n ≤ 1 then none else some (n - 1, some s.upNow3)) }).sendReport port [g]
    else s

end Sys2Proof.Machine
end

