-- ==== Sys2Proof/Machine/Serial.lean ====
section
/-!
DEFINITION. The serial audio ports (R140 to R156) and the converter channels (R179 to R184). SAP_STAT, SAP_PEND,
SRC_STAT and SRC_CHc_STAT are read live.
-/

namespace Sys2Proof.Machine

def State.serial (s : State) (p : Nat) : SerialPort := Tab.get SerialPort.init s.sap p

def State.setSerial (s : State) (p : Nat) (x : SerialPort) : State :=
  { s with sap := Tab.set SerialPort.init s.sap p x }

/-! ## Settings -/

def State.sapOn (s : State) (p : Nat) : Bool := decide (p < 32) && s.audio && s.on F.SAPp_CFG_EN [p]
def State.sapRuns (s : State) (p : Nat) : Bool := s.sapOn p && s.on F.SAPp_STAT_RUN [p]
def State.sapSends (s : State) (p : Nat) : Bool := s.on F.SAPp_CFG_DIR [p]
def State.sapQueue (s : State) (p : Nat) : Nat := s.rd F.SAPp_QMAP_QUEUE [p]
def State.sapClass (s : State) (p : Nat) : Nat := s.rd F.SAPp_STAT_CLASS [p]
def State.sapP24 (s : State) (p : Nat) : Bool := s.on F.SAPp_CFG_PACK [p]

/-- The slots that carry audio: 0 left, 1 right. -/
def State.sapSlots (s : State) (p : Nat) : List Nat :=
  (List.range 2).filter fun k => s.rd F.SAPp_CFG_SLOTS [p] / 2 ^ k % 2 == 1

/-- The nominal rate of SAPp_CFG.RATE in Hz. -/
def State.sapHz (s : State) (p : Nat) : Nat := (nsrHz (s.rd F.SAPp_CFG_RATE [p])).getD 48000

/-- The port discards its samples (R147). -/
def State.sapDeaf (s : State) (p : Nat) : Bool :=
  let c := s.sapClass p
  c == 0 || c == 14 || (s.on F.SAPp_CFG_SYNC [p] && c != s.rd F.SAPp_CFG_RATE [p])

/-- The path of a receive port (R147, R174). -/
def State.sapPath (s : State) (p : Nat) : Path :=
  if s.on F.SAPp_CFG_SYNC [p] then pathOf (s.sapHz p) s.rateHz else .async

/-! ## Places of frames (R148, R183) -/

/-- Local time `ns` in 1/3,000,000 ns from the start of block 0. -/
def State.sapPlace (s : State) (ns : Nat) : Int := (3 * (ns : Int) - s.origin3) * 1000000

/-- The measured frame period, or that of the port's RATE before a window has ended. -/
def State.sapNominal (s : State) (p : Nat) : Int :=
  if s.on F.SAPp_CFG_SYNC [p] || s.rd F.SAPp_RATE_RATE [p] == 0 then roundDiv 3000000000000000 (s.sapHz p)
  else roundDiv 3000000000000000000 (s.rd F.SAPp_RATE_RATE [p])

/-- The estimated frame period. -/
def SerialPort.period (x : SerialPort) : Int := x.nom + roundDiv (x.nom * x.off) 1000000000000000

/-- SAPp_OFS as a time. -/
def State.sapOfs (s : State) (p : Nat) : Int := 3000000 * s.rdS F.SAPp_OFS_OFS [p]

/-- A converter channel serves a port. -/
def Converter.ofPort (c : Converter) (p : Nat) : Bool := c.port && c.source / 2 == p

/-- The port input channels of a port whose converters track. -/
def State.tracking (s : State) (p : Nat) : List Nat := (s.conv.filter fun e => e.2.ofPort p && e.2.track).map (·.2.source)

/-- Replaces the converter channels of a port. -/
def State.mapConverters (s : State) (p : Nat) (f : Converter → Converter) : State :=
  { s with conv := s.conv.map fun e => (e.1, if e.2.ofPort p then f e.2 else e.2) }

/-! ## Start and stop (R143, R148, R152) -/

/-- The reading side of a receive port: one identity that feeds inputs 2p and 2p + 1, on an asynchronous path those whose
converters track. Its channels are missing until the first frame (R147, R153). -/
def State.sapReader (s : State) (p : Nat) : RxId :=
  { cfg := { rtp := false, ports := 0, fmt := 2, rate := s.rd F.SAPp_CFG_RATE [p], ch := 2
             grp := if s.on F.SAPp_CFG_GRP_EN [p] then some (s.rd F.SAPp_CFG_GRP [p]) else none
             ident := 0, dst := 0, src := 0, tagged := false, vid := 0, udp := 0, base := 0, mask := 0, pres := 0
             rtpOfs := 0, xfade := 0, depth := 0 }
    fade := Ramp.still unity, st := 2, first := some 0, fadeIn := some 0
    routes := ((List.range 2).filter fun k => s.on F.SAPp_CFG_SYNC [p] || (s.tracking p).contains (2 * p + k)).map
      fun k => (k, 2 * p + k, Ramp.still unity) }

/-- The reading side, with the phase of its slot grid set by a first frame at `t` (R175). -/
def State.sapGrid (s : State) (p : Nat) (t : Int) (i : RxId) : RxId :=
  let u := (t + s.sapOfs p) / 1000000 - readAhead3 (s.sapHz p) s.rateHz
  match s.sapPath p with
  | .up n => { i with off := some ((ceilDiv (2 * u - s.samp3) (2 * s.samp3)) % (n : Int) * s.samp3) }
  | _ => { i with off := some 0 }

/-- SAP_START: the first frame start with both clocks active. The words of an earlier run keep their places. -/
def State.sapStart (s : State) (p wsEdge : Nat) : State :=
  if s.sapOn p && !s.on F.SAPp_STAT_RUN [p] then
    let x := s.serial p
    let t := s.sapPlace wsEdge
    let x := { x with frames := 0, next := t, edge := none, fresh := false, phase := 0, drop := 0
                      nom := s.sapNominal p, off := 0, integ := 0, sendFrom3 := none, txHist := [] }
    (s.setSerial p (if s.sapSends p then x else { x with rx := some (s.sapGrid p t (x.rx.getD (s.sapReader p))) })).wr
      F.SAPp_STAT_RUN 1 [p]
  else s

/-- The port's frames stop: the frame in progress is discarded and the partial word of its queue flushed (R143, R160). -/
def State.sapHalt (s : State) (p q : Nat) : State :=
  if s.on F.SAPp_STAT_RUN [p] then (s.wr F.SAPp_STAT_RUN 0 [p]).flushQueueWord q else s

/-- The port is stopped by its settings: its reading side goes. -/
def State.sapStop (s : State) (p q : Nat) : State :=
  let s := s.sapHalt p q
  s.setSerial p { s.serial p with rx := none, due := none, slip := none }

/-- What the reader has taken from a queue is dropped. -/
def State.sapForget (s : State) (p : Nat) : State :=
  s.setSerial p { s.serial p with stamps := [], rebits := 0, reCount := 0, spare := [] }

/-- The settings of a port take effect at a commit; `old` and `oldQ` stood before it. Setting EN clears its counters, and
ORDER_LOST when its queue is empty; a change of any other setting but OFS and TXBUS restarts a running port (log entry 18). -/
def State.sapApply (s : State) (old oldQ p : Nat) : State :=
  let new := (s.word R.SAPp_CFG [p]).toNat
  let was := old / 2 ^ 31 == 1
  let en := s.on F.SAPp_CFG_EN [p]
  let s := if was && (!en || new != old || s.sapQueue p != oldQ) then s.sapStop p oldQ else s
  let s := if s.sapQueue p != oldQ || (s.on F.SAPp_CFG_PACK [p] != (old / 2 ^ 26 % 2 == 1)) then s.sapForget p else s
  if !was && en then
    let s := [F.SAPp_CNT_FRAMES_V, F.SAPp_CNT_OVERRUN_V, F.SAPp_CNT_UNDERRUN_V, F.SAPp_CNT_SHORT_V,
      F.SAPp_CNT_CLASS_V].foldl (fun s f => s.wr f 0 [p]) s
    if (s.queue (s.sapQueue p)).words.isEmpty then (s.sapForget p).wr F.SAPp_STAT_ORDER_LOST 0 [p] else s
  else s

/-! ## Receiving (R141, R142, R147 to R151) -/

/-- The bit clocks whose levels four lists give; a list that is shorter ends them. -/
def sapClocks (ws sd wsFall sdFall : List Bool) : List SapClock :=
  List.zipWith (fun (a : Bool × Bool) (b : Bool × Bool) => { ws := a.1, sd := a.2, wsFall := b.1, sdFall := b.2 })
    (ws.zip sd) (wsFall.zip sdFall)

/-- WS and SD at the sampling edge (R141). -/
def clockSample (inv : Bool) (c : SapClock) : Bool × Bool := if inv then (c.wsFall, c.sdFall) else (c.ws, c.sd)

/-- Bits, the MSB first, as a number. -/
def bitsValue (l : List Bool) : Nat := l.foldl (fun n b => 2 * n + b.toNat) 0

/-- The halves of a frame: the left one once WS has left its level, the right one once the next frame has started. In I2S a half's
bits lie one sampling edge behind its WS level (R141, R142). -/
def frameHalves (fmt inv : Bool) (clocks : List SapClock) : Option (List Bool) × Option (List Bool) :=
  let l := (clocks.map (clockSample inv)).dropWhile fun x => x.1 != fmt
  let left := l.takeWhile fun x => x.1 == fmt
  let right := (l.drop left.length).takeWhile fun x => x.1 != fmt
  let sd := (l.map (·.2)).drop (if fmt then 0 else 1)
  let rest := l.drop (left.length + right.length)
  (if right.isEmpty then none else some (sd.take left.length),
   if right.isEmpty || rest.isEmpty then none else some ((sd.drop left.length).take right.length))

/-- One half as a 32-bit word, MSB-aligned: WLEN bits, missing low bits 0 (R142). -/
def halfWord (wlen bits v : Nat) : Nat :=
  if wlen ≤ bits then v / 2 ^ (bits - wlen) % 2 ^ wlen * 2 ^ (32 - wlen) else v % 2 ^ bits * 2 ^ (32 - bits)

/-- A stored sample: 32 bits in C32, rounded to 24 bits in P24 (R149). -/
def State.sapSample (s : State) (p : Nat) (w : Nat) : Nat :=
  if s.sapP24 p then ofSigned 24 (wireSample 2 (w : Int)) else w

/-- The places of stored samples: the last `k` go, and then the next is at `t`. -/
def SerialPort.restamp (x : SerialPort) (k : Nat) (t : List Int) : SerialPort :=
  { x with stamps := x.stamps.take (x.stamps.length - k) ++ t }

/-- The P24 bits of sample `v` at place `t` after a drop: the low ones fall on stored bits (R151). The sample that two others make
up has the place of the later one (log entry 160). -/
def State.packP24 (s : State) (p v : Nat) (t : Int) : State :=
  let x := s.serial p
  let q := s.sapQueue p
  let lost := 256 * x.phase % 24
  let before := (s.queue q).asmBits + (24 - x.drop)
  let (s, dropped) := s.assemble q (24 - x.drop) (v / 2 ^ x.drop)
  let x := { x with drop := 0 }
  if before < 256 then s.setSerial p (x.restamp 0 [t])
  else if !dropped then s.setSerial p ({ x with phase := (x.phase + 1) % 3 }.restamp 0 [t])
  else
    let s := (s.count F.SAPp_CNT_OVERRUN_V [p]).raise F.SAPp_EVT_OVERRUN [p]
    let s := if (s.sapSlots p).length == 2 then (s.wr F.SAPp_STAT_ORDER_LOST 1 [p]).raise F.SAPp_EVT_ORDER_LOST [p] else s
    let y := s.queue q
    if before == 256 then (s.setQueue q { y with asm := 0, asmBits := 0 }).setSerial p ({ x with drop := lost }.restamp 10 [])
    else (s.setQueue q { y with asm := v / 2 ^ lost, asmBits := 24 - lost }).setSerial p
      (x.restamp (if lost == 0 then 10 else 11) [t])

/-- A C32 sample; a dropped word takes 8 samples with it (R150). -/
def State.packC32 (s : State) (p v : Nat) (t : Int) : State :=
  let x := s.serial p
  let (s, dropped) := s.assemble (s.sapQueue p) 32 v
  if dropped then ((s.setSerial p (x.restamp 7 [])).count F.SAPp_CNT_OVERRUN_V [p]).raise F.SAPp_EVT_OVERRUN [p]
  else s.setSerial p (x.restamp 0 [t])

/-- A complete half of `bits` bit clocks is reported; a short one counts (R142). -/
def State.halfDone (s : State) (p bits : Nat) : State :=
  let s := s.wr F.SAPp_STAT_HALF_BITS (min bits 255) [p]
  if bits < s.rd F.SAPp_CFG_WLEN [p] then (s.count F.SAPp_CNT_SHORT_V [p]).raise F.SAPp_EVT_SHORT [p] else s

/-- The words of both halves are stored, the left before the right, unless the port discards them. -/
def State.sapStore (s : State) (p : Nat) (l r : List Bool) (t : Int) : State :=
  if s.sapDeaf p then s
  else
    let wlen := s.rd F.SAPp_CFG_WLEN [p]
    (s.sapSlots p).foldl (fun s k =>
      let h := if k == 0 then l else r
      let v := s.sapSample p (halfWord wlen h.length (bitsValue h))
      if s.sapP24 p then s.packP24 p v t else s.packC32 p v t) s

/-- SAP_RECEIVE_FRAME: a frame whose right half does not end is discarded (R143). -/
def State.sapReceive (s : State) (p wsEdge : Nat) (clocks : List SapClock) : State :=
  if !s.sapRuns p || s.sapSends p then s
  else
    let (left, right) := frameHalves (s.on F.SAPp_CFG_FMT [p]) (s.on F.SAPp_CFG_BCLK_INV [p]) clocks
    match left with
    | none => s
    | some l =>
      let s := s.halfDone p l.length
      match right with
      | none => s
      | some r =>
        let s := (s.halfDone p r.length).count F.SAPp_CNT_FRAMES_V [p]
        let x := s.serial p
        let t := x.next
        (s.setSerial p { x with
          frames := x.frames + 1, next := t + x.period, edge := some (s.sapPlace wsEdge, t), fresh := true }).sapStore p l r t

/-! ## Rate and class (R144 to R146) -/

/-- The code whose nominal lies within 2 % of a rate in mHz, or 14 or 15 (R145). -/
def classOf (mHz : Nat) : Nat :=
  match (List.range 11).find? fun c => match nsrHz c with
    | some hz => decide (50 * ((mHz : Int) - 1000 * hz).natAbs ≤ 1000 * hz)
    | none => false with
  | some c => c
  | none => if 8000000 ≤ mHz && mHz ≤ 216000000 then 15 else 14

/-- CLASS changes. -/
def State.setClass (s : State) (p c : Nat) : State :=
  if s.sapClass p == c then s
  else ((s.wr F.SAPp_STAT_CLASS c [p]).count F.SAPp_CNT_CLASS_V [p]).raise F.SAPp_EVT_CLASS_CHG [p]

/-- DEV_HI by R146. -/
def State.setDev (s : State) (p mHz : Nat) : State :=
  let hi := match nsrHz (s.sapClass p) with
    | some hz => decide (s.rd F.SAPp_THR_THR [p] * (1000 * hz) < 1000000 * ((mHz : Int) - 1000 * hz).natAbs)
    | none => false
  let s' := s.wr F.SAPp_STAT_DEV_HI (if hi then 1 else 0) [p]
  s'.raiseIf (hi && !s.on F.SAPp_STAT_DEV_HI [p]) F.SAPp_EVT_DEV [p]

/-- The frames to come, and those stored, are placed `d` later. -/
def SerialPort.shift (x : SerialPort) (d : Int) : SerialPort :=
  { x with
    next := x.next + d, stamps := x.stamps.map (· + d), edge := x.edge.map fun e => (e.1, e.1), off := 0, integ := 0, due := none
    rx := x.rx.map fun i => { i with hist := i.hist.map fun e => (e.1 + d, e.2) } }

/-- How far the latest WS edge lies behind the place of its frame: the position error of R183. -/
def SerialPort.error (x : SerialPort) : Int := match x.edge with | some (e, t) => e - t | none => 0

/-- The converters of a port take its measured ratio, and its latest frame for their position. -/
def State.recentre (s : State) (p : Nat) (ratio : Bool) : State :=
  let x := s.serial p
  let y := x.shift x.error
  s.setSerial p (if ratio then { y with nom := s.sapNominal p } else y)

/-- The channels of a port start to track: their samples fade in. -/
def State.startTracking (s : State) (p : Nat) : State :=
  let fresh := (s.conv.filter fun e => e.2.ofPort p && !e.2.track).map (·.2.source)
  let s := if (s.tracking p).isEmpty then s.recentre p true else s
  let x := s.serial p
  let s := s.setSerial p { x with rx := x.rx.map fun i =>
    { i with
      fadeIn := if (s.tracking p).isEmpty then none else i.fadeIn
      gap := i.gap && !(s.tracking p).isEmpty
      routes := i.routes.filter (fun r => !fresh.contains r.2.1)
        ++ fresh.map fun c => (c % 2, c, (Ramp.still 0).to unity 64) } }
  s.mapConverters p fun v => { v with track := true }

/-- A slip or a new class: the samples fade out before the converters are set anew. -/
def State.fadeTrack (s : State) (p : Nat) (ratio : Bool) : State :=
  let x := s.serial p
  if x.slip.isSome then s.setSerial p { x with slip := some (ratio || x.slip == some true) }
  else s.setSerial p { x with slip := some ratio, rx := x.rx.map fun i => { i with fade := i.fade.to 0 64 } }

/-- The converter channels of a port after a rate window (R184): start, reacquisition or loss. -/
def State.trackWindow (s : State) (p oldClass : Nat) : State :=
  let c := s.sapClass p
  let n := (s.tracking p).length
  if c == 0 || c == 14 then s.mapConverters p fun v => { v with track := false, err := 0 }
  else
    let s := if n != 0 && oldClass != c then ((s.count F.SRC_CNT_REACQ_V [] n).raise F.SRC_EVT_REACQ).fadeTrack p true else s
    if s.conv.any fun e => e.2.ofPort p && !e.2.track then s.startTracking p else s

/-- The loop of R183 at a block: an integral and a proportional part of the position error, at 1 Hz (log entry 159). -/
def SerialPort.loop (x : SerialPort) (block3 : Nat) : SerialPort :=
  let w := Config.trackOmega
  let i := x.integ + roundDiv (w * w * x.error * block3) 9000000000000000000000
  { x with integ := i, off := i + roundDiv (2 * w * x.error) 3000000 }

/-- The tracker of a port at a block: the loop runs, a slip is judged, and what has faded out is set anew (R183, R184). -/
def State.sapTrack (s : State) (p : Nat) : State :=
  let x := s.serial p
  let n := (s.tracking p).length
  if n == 0 then s
  else match x.slip with
    | some ratio =>
      if (x.rx.map fun i => i.fade.moving) == some true then s
      else
        let s := (s.recentre p ratio).mapConverters p fun v => { v with err := 0 }
        let x := s.serial p
        s.setSerial p { x with slip := none, rx := x.rx.map fun i => { i with fade := i.fade.to unity 64 } }
    | none =>
      if !x.fresh then s
      else
        let err := roundDiv (8 * x.error) (s.samp3 * 1000000)
        let s := (s.setSerial p { x.loop s.block3 with fresh := false }).mapConverters p fun v => { v with err := err }
        if 8 * s.rd F.SRC_CTRL_SLIP_WIN < err.natAbs then ((s.count F.SRC_CNT_SLIP_V [] n).raise F.SRC_EVT_SLIP).fadeTrack p false
        else s

/-- RATE_WINDOW_END: 4,096 WS periods took `cycles` cycles of the peripheral clock of 153.6 MHz. -/
def State.rateWindowEnd (s : State) (p cycles : Nat) : State :=
  if decide (p < 32) && s.audio && cycles != 0 then
    let mHz := (roundDiv 629145600000000 cycles).toNat
    let old := s.sapClass p
    (((s.wr F.SAPp_RATE_RATE (min mHz (2 ^ 32 - 1)) [p]).setClass p (classOf mHz)).setDev p mHz).trackWindow p old
  else s

/-- CLASS_NONE: no WS edge for 4 periods of the class. The port stops until its clocks return. -/
def State.classNone (s : State) (p : Nat) : State :=
  if decide (p < 32) && s.audio && s.sapClass p != 0 then
    (((s.setClass p 0).wr F.SAPp_STAT_DEV_HI 0 [p]).sapHalt p (s.sapQueue p)).mapConverters p
      fun v => { v with track := false, err := 0 }
  else s

/-! ## Converter channels (R179) -/

/-- The source channels that are asynchronous now: kind, number and design rate. -/
def State.asyncSources (s : State) : List (Bool × Nat × Nat) :=
  let net := (s.str.rx.map fun e => (e.2.map fun i =>
    if s.rxPath i.cfg == .async then i.routes.map fun r => (false, r.2.1, i.cfg.rate) else []).flatten).flatten
  let ports := ((List.range 32).map fun p =>
    if s.on F.SAPp_CFG_EN [p] && !s.sapSends p && !s.on F.SAPp_CFG_SYNC [p] then
      (s.sapSlots p).map fun k => (true, 2 * p + k, s.rd F.SAPp_CFG_RATE [p]) else []).flatten
  net ++ ports

/-- The lowest free converter channel from `c` on. -/
def freeConverter (t : Tab Converter) : Nat → Nat → Nat
  | 0, c => c
  | n + 1, c => if (t.lookup c).isNone then c else freeConverter t n (c + 1)

/-- A source channel takes the lowest free converter channel; one that holds a channel keeps it, at its present design rate. -/
def takeConverter (t : Tab Converter) (w : Bool × Nat × Nat) : Tab Converter :=
  if t.any fun e => e.2.port == w.1 && e.2.source == w.2.1 then
    t.map fun e => (e.1, if e.2.port == w.1 && e.2.source == w.2.1 then { e.2 with design := w.2.2 } else e.2)
  else Tab.put t (freeConverter t t.length 0) (some { port := w.1, source := w.2.1, design := w.2.2, track := !w.1 })

/-- Channels are freed and taken as the sources change. -/
def State.allocate (s : State) : State :=
  let want := s.asyncSources
  let kept := s.conv.filter fun e => want.any fun w => w.1 == e.2.port && w.2.1 == e.2.source
  { s with conv := want.foldl takeConverter kept }

/-- IDENTITY_FADE_END: with the old identities go their groups and their converters (R83, R107, R179). -/
def State.identityFadeEnd (s : State) (tx : Bool) (n : Nat) : State :=
  ((s.fadeEnd tx n).groupsChange 0).groupsChange 1 |>.allocate

/-! ## Reading a receive port on the block grid (R148, R153, R177) -/

/-- The samples in the low `n` bits of a word, with the bits left over. -/
def unpack (width : Nat) : Nat → Nat → Nat → List Nat × Nat × Nat
  | 0, v, n => ([], v, n)
  | k + 1, v, n =>
    if n < width then ([], v, n)
    else
      let (l, v', n') := unpack width k (v / 2 ^ width) (n - width)
      (v % 2 ^ width :: l, v', n')

/-- A word of the port's queue is taken: its samples join those at hand. -/
def State.sapTake (s : State) (p : Nat) : State × Bool :=
  let (s, w) := s.readQueue (s.sapQueue p)
  match w with
  | none => (s, false)
  | some (tag, v) =>
    let x := s.serial p
    let width := if s.sapP24 p then 24 else 32
    let (l, rest, n) := unpack width 16 (x.rebits + v * 2 ^ x.reCount) (x.reCount + 8 * tag)
    let sample := fun r : Nat => if s.sapP24 p then toSigned 24 r else wireSample 2 (r : Int)
    (s.setSerial p { x with rebits := rest, reCount := n, spare := x.spare ++ l.map sample }, true)

/-- A row of both channels from the samples of the selected slots. -/
def slotRow (slots : List Nat) (l : List Int) : List Int :=
  (List.range 2).map fun k => if slots.contains k then l.getD (slots.idxOf k) 0 else 0

/-- Takes words until a whole frame of `k` samples is at hand, two at most. -/
def State.sapFill (s : State) (p k : Nat) : Nat → State
  | 0 => s
  | n + 1 =>
    if k ≤ (s.serial p).spare.length then s
    else
      let (s, got) := s.sapTake p
      if got then s.sapFill p k n else s

/-- The samples stored and not yet read. -/
def State.sapHeld (s : State) (p : Nat) : Nat :=
  let x := s.serial p
  let y := s.queue (s.sapQueue p)
  x.spare.length + (x.reCount + 8 * (y.words.map (·.1)).sum + y.asmBits) / (if s.sapP24 p then 24 else 32)

/-- The frames placed before `stop`, each with its place, the oldest first. -/
def State.sapFrames (s : State) (p : Nat) (stop : Int) : Nat → State × List (Int × List Int)
  | 0 => (s, [])
  | fuel + 1 =>
    let slots := s.sapSlots p
    let k := slots.length
    let t := ((s.serial p).stamps.headD (s.serial p).next) + s.sapOfs p
    if k == 0 || stop ≤ t then (s, [])
    else
      let s := s.sapFill p k 2
      let x := s.serial p
      if x.spare.length < k then (s, [])
      else
        let (s, l) := (s.setSerial p { x with spare := x.spare.drop k, stamps := x.stamps.drop k }).sapFrames p stop fuel
        (s, (t, slotRow slots (x.spare.take k)) :: l)

/-- Frames on an asynchronous path: one that is placed more than half a period behind its due place ends a run of missing ones,
and the ramp of R98 follows it. Gives the frames for the converter and how many were missing. -/
def State.sapDue (s : State) (p : Nat) (i : RxId) (due : Option Int) : List (Int × List Int) → RxId × Option Int × List (Int × List Int) × Nat
  | [] => (i, due, [], 0)
  | (t, row) :: rest =>
    let period := max 1 (s.serial p).period
    let lost := match due with | some d => (roundDiv (t - d) period.toNat).toNat | none => 0
    let i := { i with inRun := false }
    let i := if lost != 0 || i.gap then { i with gap := false, fadeIn := some 0 } else i
    let (i, row) := match i.fadeIn with
      | none => (i, row)
      | some r => ({ i with fadeIn := if (r + 1) * s.rateHz < 64 * s.sapHz p then some (r + 1) else none }, rampRow (s.sapHz p) s.rateHz r row)
    let (i, due, l, n) := s.sapDue p i (some (t + period)) rest
    (i, due, (t, row) :: l, lost + n)

/-- An asynchronous port in the block from `t0` to `t1`: its frames, with those still due before the end counted as missing. Without
a converter that tracks its channels are missing. -/
def State.sapAsync (s : State) (p : Nat) (i : RxId) (t0 t1 : Int) : State × RxId × Nat × Bool :=
  let (s, l) := s.sapFrames p t1 4096
  let l := if (s.tracking p).isEmpty then [] else l.filter fun e => decide (t0 ≤ e.1)
  let x := s.serial p
  let idle := (s.tracking p).isEmpty || x.edge.isNone
  let (i', due, l, n) := s.sapDue p i (if idle then some (x.due.getD t0) else x.due) l
  let period := if x.nom == 0 then s.sapNominal p else max 1 x.period
  let more := match due with | some d => if d + period / 2 < t1 then ((t1 - d - period / 2 + period - 1) / period).toNat else 0 | none => 0
  let lost := n + more
  let began := decide (0 < lost) && !i.inRun
  let i' := if more == 0 then i' else { i' with gap := true, fadeIn := none, inRun := true }
  (s.setSerial p { x with due := due.map (· + more * period) }, { i' with hist := (l.reverse ++ i'.hist).take histKeep }, lost, began)

/-- A port on an exact path in block `b`: its frames under their slots; those of slots read already are discarded (R153, R175). -/
def State.sapExact (s : State) (p b : Nat) (i : RxId) : State × RxId × List (List Int) × Nat × Bool :=
  let rate := s.sapHz p
  let off := i.off.getD 0
  let lo := (slotFrom ((b * s.block3 : Nat) : Int) off rate).toNat
  let hi := (slotFrom (((b + 1) * s.block3 : Nat) : Int) off rate).toNat
  let ahead := readAhead3 rate s.rateHz
  let stop := ((((b + 1) * s.block3 : Nat) : Int) + ahead) * 1000000 + roundDiv 3000000000000000 (2 * rate)
  let (s, l) := s.sapFrames p stop 4096
  let keyed := l.map fun e => (slotOf (e.1 / 1000000 - ahead) off rate, e.2)
  let buf := (keyed.filter fun e => decide ((lo : Int) ≤ e.1)).foldl (fun t e => Tab.put t e.1.toNat (some e.2)) i.buf
  let (i, rows, miss, began) := s.rxSlots { i with buf := buf } lo (hi - lo)
  let timed := rows.mapIdx fun k r => (off * 1000000 + roundDiv (3000000000000000 * (((lo + k : Nat) : Int))) rate, r)
  (s, { i with hist := (timed.reverse ++ i.hist).take histKeep }, rows, miss, began)

/-- The 32 rows that port `p` presents in block `b`, and its reading side after them. -/
def State.sapRows (s : State) (p b : Nat) : State × RxId × List (List Int) :=
  let x := s.serial p
  let s := s.setSerial p { x with stamps := x.stamps.drop (x.stamps.length - s.sapHeld p) }
  let i := x.rx.getD (s.sapReader p)
  let count := fun (s : State) (n : Nat) (began : Bool) =>
    (s.count F.SAPp_CNT_UNDERRUN_V [p] n).raiseIf began F.SAPp_EVT_UNDERRUN [p]
  if s.on F.SAPp_CFG_SYNC [p] then
    let (s, i, rows, miss, began) := s.sapExact p b i
    let s := count s miss began
    (s, i, if s.sapPath p == .same then rows else s.pathRows (s.sapPath p) (s.sapHz p) none 2 i.hist b)
  else
    let edge := fun k : Nat => ((k * s.block3 : Nat) : Int) * 1000000
    let (s, i, miss, began) := s.sapAsync p i (edge b) (edge (b + 1))
    (count s miss began, i, s.pathRows .async (s.sapHz p) (i.cfg.grp.map s.groupDelayOf) 2 i.hist b)

/-- One port feeds its two input channels in block `b`. -/
def State.sapFeed (s : State) (p b : Nat) : State × List (Nat × List Int) :=
  if !s.sapOn p || s.sapSends p || (s.sapSlots p).isEmpty then (s, [])
  else
    let (s, i, rows) := (s.sapTrack p).sapRows p b
    let (i, out) := s.rxContribute (s.sapPath p == .async) i rows
    (s.setSerial p { s.serial p with rx := some i }, out)

/-- The port input channels in block `b`. -/
def State.portInputs (s : State) (b : Nat) : State × Tab (List Int) :=
  (List.range 32).foldl (fun (acc : State × Tab (List Int)) p =>
    let (s, out) := acc.1.sapFeed p b
    (s, addInto acc.2 (out.map fun e => (e.1, e.2.map satQ23)))) (s, [])

/-! ## Transmitting (R154, R178) -/

/-- What a transmit port writes at internal sample `m`, the newest of `hist`: the frames whose filter ends there (R178). -/
def State.sapFiltered (s : State) (p : Nat) (m : Nat) (hist : List (List Int)) : List (List Int) :=
  let r := s.sapHz p
  let f := s.rateHz
  let ch := (s.sapSlots p).length
  if r == f then [hist.headD []]
  else if r < f then
    let n := f / r
    if m % n == 0 then [(firRow ch (64 * n) (Config.firTap (-(n : Int)) (64 * n)) 40 hist).map satQ23] else []
  else
    let k := r / f
    (List.range k).map fun j => (firRow ch 64 (fun i => Config.firTap (k : Int) (64 * k) (k * i + j)) 40 hist).map satQ23

/-- A frame enters the port's queue whole, or is dropped whole. -/
def State.sapPut (s : State) (p : Nat) (l : List Int) : State :=
  let q := s.sapQueue p
  let width := if s.sapP24 p then 24 else 32
  let x := s.queue q
  if 256 ≤ x.asmBits + width * l.length && (s.queueFull q || x.resetting) then
    (s.count F.SAPp_CNT_OVERRUN_V [p]).raise F.SAPp_EVT_OVERRUN [p]
  else l.foldl (fun s v => (s.assemble q width (if s.sapP24 p then ofSigned 24 v else ofSigned 32 (v * 256))).1) s

/-- The output stage hands internal sample `m` to a transmit port. The first frame written sets when the port starts to send. -/
def State.sapWriteAt (s : State) (p m : Nat) (row : List Int) : State :=
  let x := s.serial p
  let hist := (row :: x.txHist).take 768
  let l := s.sapFiltered p m hist
  let start : Int := ((m * s.samp3 : Nat) : Int) + 3 * s.rdS F.SAPp_OFS_OFS [p]
  let s := s.setSerial p { x with txHist := hist, sendFrom3 := if l.isEmpty then x.sendFrom3 else some (x.sendFrom3.getD start) }
  l.foldl (fun s f => s.sapPut p f) s

/-- The output stage writes the frames of egress block `b` into one transmit port's queue. -/
def State.sapWrite (s : State) (b : Nat) (egress : Tab (List Int)) (p : Nat) : State :=
  if !s.sapRuns p || !s.sapSends p then s
  else
    let bus := fun k => if k == 0 then s.rd F.SAPp_TXBUS_BUS_L [p] else s.rd F.SAPp_TXBUS_BUS_R [p]
    let blocks := (s.sapSlots p).map fun k => (Tab.get zeros32 egress (bus k)).map satQ23
    (List.range 32).foldl (fun s j => s.sapWriteAt p (32 * b + j) (blocks.map fun r => r.getD j 0)) s

/-- All transmit ports take the egress block. -/
def State.sapBlock (s : State) (b : Nat) (egress : Tab (List Int)) : State :=
  (List.range 32).foldl (fun s p => s.sapWrite b egress p) s

/-- The bits of a slot on the wire: WLEN bits of the sample, MSB first, and 0 after them, for `n` bit clocks (R142). -/
def wireBits (wlen n : Nat) (v : Int) : List Bool :=
  (List.range n).map fun k => decide (k < wlen) && (ofSigned 32 (v * 256)).testBit (31 - k)

/-- A frame leaves a transmit port with halves of `lb` and `rb` bit clocks; undriven while the claim gate is closed (R342). -/
def State.sapSend (s : State) (p lb rb : Nat) (row : List Int) : State :=
  let wlen := s.rd F.SAPp_CFG_WLEN [p]
  (s.wr F.SAPp_STAT_HALF_BITS (min rb 255) [p]).emit (.sapFrame p s.gate (s.on F.SAPp_CFG_FMT [p]) (s.on F.SAPp_CFG_BCLK_INV [p])
    (wireBits wlen lb (row.getD 0 0)) (wireBits wlen rb (row.getD 1 0)))

/-- SAP_TRANSMIT_FRAME: one frame goes out. -/
def State.sapTransmit (s : State) (p wsEdge lb rb : Nat) : State :=
  if !s.sapRuns p || !s.sapSends p then s
  else
    let s := s.count F.SAPp_CNT_FRAMES_V [p]
    let slots := s.sapSlots p
    let k := slots.length
    let begun := match (s.serial p).sendFrom3 with
      | some t => decide (t ≤ 3 * (wsEdge : Int) - s.origin3)
      | none => false
    if !begun || k == 0 then s.sapSend p lb rb []
    else
      let s := s.sapFill p k 2
      let x := s.serial p
      if x.spare.length < k then ((s.count F.SAPp_CNT_UNDERRUN_V [p]).raise F.SAPp_EVT_UNDERRUN [p]).sapSend p lb rb []
      else (s.setSerial p { x with spare := x.spare.drop k }).sapSend p lb rb (slotRow slots (x.spare.take k))

end Sys2Proof.Machine
end

