-- ==== Sys2Proof/Machine/Store.lean ====
section
/-!
DEFINITION. The delay store (R190 to R195) and the readers of delays with their tap crossfade (R188, R232, R233).
-/

namespace Sys2Proof.Machine

/-! ## Words of a line (R191 to R193) -/

/-- A shift register of `w` bits takes a bit. -/
def crcStep (w poly c : Nat) (bit : Bool) : Nat :=
  let out := (c / 2 ^ (w - 1) % 2 == 1) != bit
  let c' := c * 2 % 2 ^ w
  if out then Nat.xor c' poly else c'

/-- The CRC over the low `n` bits of a word, the highest bit first, from all ones (R191). -/
def crcBits (w poly : Nat) : Nat → Nat → Nat → Nat
  | 0, _, c => c
  | n + 1, v, c => crcBits w poly n v (crcStep w poly c (v / 2 ^ n % 2 == 1))

def crc16 (v : Nat) : Nat := crcBits 16 0x1021 240 v 0xFFFF
def crc12 (v : Nat) : Nat := crcBits 12 0x80F 244 v 0xFFF

/-- Fields of `n` bits packed from the lowest. -/
def packBits (n : Nat) : List Int → Nat
  | [] => 0
  | x :: xs => ofSigned n x + 2 ^ n * packBits n xs

/-- `k` signed fields of `n` bits from the lowest. -/
def fieldsOf (n : Nat) : Nat → Nat → List Int
  | 0, _ => []
  | k + 1, v => toSigned n v :: fieldsOf n k (v / 2 ^ n)

/-- The mantissa of a sample at exponent `s` (R192). -/
def mantissa (s : Nat) (x : Int) : Int := roundDiv x (2 ^ s)

/-- The smallest exponent at which every mantissa fits, 8 at most (R192). -/
def blockExponent (xs : List Int) : Nat :=
  ((List.range 8).find? fun s => xs.all fun x => decide (-32768 ≤ mantissa s x ∧ mantissa s x ≤ 32767)).getD 8

/-- The stored word of 10 exact or 15 block-float samples, oldest first. -/
def lineWord (float : Bool) (xs : List Int) : Nat :=
  if float then
    let s := blockExponent xs
    let v := packBits 16 (xs.map fun x => min 32767 (mantissa s x)) + s * 2 ^ 240
    v + crc12 v * 2 ^ 244
  else
    let v := packBits 24 xs
    v + crc16 v * 2 ^ 240

/-- The samples of a stored word, or none where the check code fails. -/
def lineSamples (float : Bool) (w : Nat) : Option (List Int) :=
  if float then
    if w / 2 ^ 244 % 4096 == crc12 (w % 2 ^ 244) then
      some ((fieldsOf 16 15 w).map fun m => m * (2 ^ (w / 2 ^ 240 % 16) : Nat))
    else none
  else if w / 2 ^ 240 % 65536 == crc16 (w % 2 ^ 240) then some (fieldsOf 24 10 w)
  else none

/-! ## Lines (R190, R194, R195) -/

/-- Samples to a word. -/
def LineState.per (l : LineState) : Nat := if l.float then 15 else 10

/-- C of R190. -/
def LineState.capacity (l : LineState) : Nat := l.len * l.per

/-- The enabled line of an owner. -/
def State.lineOf (s : State) (kind n : Nat) : Option (Nat × LineState) :=
  s.lines.find? fun e => e.2.kind == kind && e.2.owner == n

/-- DRAM offset of word `w` of a line. -/
def State.lineAddr (s : State) (l : LineState) (w : Nat) : Nat :=
  s.rd F.INP_DLYREG_BASE * 1048576 + 32 * (l.base + w % l.len)

def State.setLine (s : State) (k : Nat) (l : Option LineState) : State := { s with lines := Tab.put s.lines k l }

/-- The settings of line `k` take effect at a commit: a line whose settings changed restarts empty (R195). -/
def State.lineApply (s : State) (k : Nat) : State :=
  if s.on F.LINEl_CFG_EN [k] then
    let l : LineState :=
      { kind := s.rd F.LINEl_CFG_OWNER_KIND [k], owner := s.rd F.LINEl_CFG_OWNER [k]
        float := s.on F.LINEl_CFG_CODING [k], len := s.rd F.LINEl_CFG_LEN [k], base := s.rd F.LINEl_BASE_BASE [k] }
    match s.lines.lookup k with
    | some o => if { o with total := 0, raw := [] } == l then s else s.setLine k (some l)
    | none => s.setLine k (some l)
  else s.setLine k none

/-- A sample enters a line; the word it completes is stored in DRAM. -/
def State.linePush (s : State) (k : Nat) (x : Int) : State :=
  match s.lines.lookup k with
  | none => s
  | some l =>
    let l := { l with total := l.total + 1, raw := (x :: l.raw).take 64 }
    let s := s.setLine k (some l)
    if l.total % l.per == 0 then
      s.dramWrite (s.lineAddr l (l.total / l.per - 1)) (leBytes 32 (lineWord l.float (l.raw.take l.per).reverse))
    else s

/-- A block enters a line. -/
def State.lineWrite (s : State) (k : Nat) (xs : List Int) : State := xs.foldl (fun s x => s.linePush k x) s

/-- A check mismatch (R194). -/
def State.lineCheck (s : State) (k : Nat) (l : LineState) : State :=
  let s := if l.kind == 0 then s.wr F.INPn_STAT_CHECK 1 [l.owner] else s
  let s := (s.count F.INP_CNT_CHECK_V).wr F.INP_ERRLOG_LINE k
  (s.wr F.INP_ERRTIME_NS s.stamp).raise F.INP_EVT_CHECK

/-- One tap fetches words of a line, each once. -/
def State.fetchWords (s : State) (k : Nat) (l : LineState) : List Nat → State × Tab (List Int)
  | [] => (s, [])
  | w :: ws =>
    let (s, t) := s.fetchWords k l ws
    match lineSamples l.float (ofLe (s.dramRead (s.lineAddr l w) 32)) with
    | some xs => (s, Tab.put t w (some xs))
    | none => (s.lineCheck k l, Tab.put t w (some []))

/-- Sample `i` is served from its stored word at the moment sample `t` has been written. -/
def LineState.stored (l : LineState) (t i : Nat) : Bool := decide ((i / l.per + 1) * l.per ≤ min (t + 1) l.total)

/-- Sample `i` as it was written. -/
def LineState.exact (l : LineState) (i : Nat) : Int := if l.total ≤ i then 0 else l.raw.getD (l.total - 1 - i) 0

/-- One tap reads samples of a line: pairs of the moment and the sample's number; numbers below 0 read as 0. -/
def State.tapRead (s : State) (k : Nat) (l : LineState) (req : List (Nat × Int)) : State × List Int :=
  let words := ((req.filter fun r => decide (0 ≤ r.2) && l.stored r.1 r.2.toNat).map fun r => r.2.toNat / l.per).eraseDups
  let (s, t) := s.fetchWords k l words
  (s, req.map fun r =>
    if r.2 < 0 then 0
    else
      let i := r.2.toNat
      if l.stored r.1 i then (Tab.get [] t (i / l.per)).getD (i % l.per) 0 else l.exact i)

/-! ## Readers (R188, R232, R233) -/

/-- A new delay for a reader: a crossfade starts, or the change is held while one runs; an older held delay gives way. -/
def DlyReader.set (r : DlyReader) (d : Nat) : DlyReader :=
  match r.xf with
  | some _ => { r with held := some d }
  | none => if d == r.cur then { r with held := none } else { r with xf := some (r.cur, d, 0), held := none }

/-- The delay is set without a crossfade. -/
def DlyReader.hard (d : Nat) : DlyReader := { cur := d }

/-- At a block boundary a held delay that differs from the tap starts a new crossfade. -/
def DlyReader.boundary (r : DlyReader) : DlyReader :=
  match r.xf, r.held with
  | none, some d => ({ r with held := none } : DlyReader).set d
  | _, _ => r

/-- DELAY_XFADE_END: 960 samples have passed; the new tap alone is read. -/
def DlyReader.finish (r : DlyReader) : DlyReader :=
  match r.xf with
  | some (_, d, k) => if 960 ≤ k then { r with cur := d, xf := none } else r
  | none => r

/-- A block has been read. -/
def DlyReader.step (r : DlyReader) : DlyReader :=
  match r.xf with
  | some (a, b, k) => { r with xf := some (a, b, min (k + 32) 960) }
  | none => r

/-- The value of a crossfade at its `k`-th sample. -/
def tapMix (k : Nat) (old new : Int) : Int :=
  if 960 ≤ k then new else satQ23 (roundDiv (((960 - k : Nat) : Int) * old + (k : Int) * new) 960)

/-- One tap of a reader over `n` samples from the first of the last block written on: through the line, or, at delay 0,
the samples `xs` themselves. `from` is the number of the block's first sample. -/
def State.tapBlock (s : State) (line : Option (Nat × LineState)) (xs : List Int) (start n d : Nat) : State × List Int :=
  if d == 0 then (s, (List.range n).map fun j => xs.getD j 0)
  else match line with
    | some (k, l) => s.tapRead k l ((List.range n).map fun j => (start + j, ((start + j : Nat) : Int) - d))
    | none => (s, List.replicate n 0)

/-- A reader's samples of the block just written into its line, and of the 16 that follow where `ahead`; samples that
the outgoing tap does not hold yet are taken from the incoming tap alone (log entry 21). -/
def State.readDelay (s : State) (line : Option (Nat × LineState)) (r : DlyReader) (xs : List Int) (start : Nat)
    (ahead : Bool) : State × List Int :=
  let n := if ahead then 48 else 32
  match r.xf with
  | none => s.tapBlock line xs start n r.cur
  | some (a, b, k) =>
    let (s, old) := s.tapBlock line xs start n a
    let (s, new) := s.tapBlock line xs start n b
    (s, (List.range n).map fun j =>
      if 32 + a ≤ j then new.getD j 0 else tapMix (k + j + 1) (old.getD j 0) (new.getD j 0))

end Sys2Proof.Machine
end

