-- ==== Sys2Proof/Machine/Input.lean ====
section
/-!
DEFINITION. The input stage (R185 to R189): source, gain, polarity and delay of each channel, and the biquad sections
that the cores run on it.
-/

namespace Sys2Proof.Machine

def State.inpChan (s : State) (n : Nat) : InpChan := Tab.get InpChan.init s.inp n

def State.setInpChan (s : State) (n : Nat) (x : InpChan) : State :=
  { s with inp := Tab.set InpChan.init s.inp n x }

/-- The signed gain that a channel's registers set, in Q4.20 (R186, R187). -/
def State.inpGain (s : State) (n : Nat) : Int :=
  let g := db64Gain (s.rd F.INPn_GAIN_GAIN [n])
  if s.on F.INPn_GAIN_POL [n] then -g else g

/-- The coefficients of section `k`, or none where it is disabled. -/
def State.inpSection (s : State) (n k : Nat) : Option (List Int) :=
  if s.rd F.INPn_BQ_EN [n] / 2 ^ k % 2 == 1 then
    some ((List.range 5).map fun c => s.rdS F.INPn_BQk_Cc_COEF [n, k, c])
  else none

def State.inpSections (s : State) (n : Nat) : List (Option (List Int)) := (List.range 4).map (s.inpSection n)

/-- Channel `n` takes its committed settings (R187 to R189); `s0` is the state before the swap; `hard` sets them without
ramps. -/
def State.inpApply (s0 : State) (hard : Bool) (s : State) (n : Nat) : State :=
  let x := s.inpChan n
  let d := s.rd F.INPn_DLY_DELAY [n]
  if hard then s.setInpChan n { x with gain := Ramp.still (s.inpGain n), dly := DlyReader.hard d }
  else
    let gain :=
      if s0.rd F.INPn_GAIN_GAIN [n] == s.rd F.INPn_GAIN_GAIN [n] && s0.on F.INPn_GAIN_POL [n] == s.on F.INPn_GAIN_POL [n]
      then x.gain
      else x.gain.to (s.inpGain n) (s.rampSamples (s.rd F.INPn_GAIN_RAMP [n]))
    let dly := if s0.rd F.INPn_DLY_DELAY [n] == d then x.dly else x.dly.set d
    s.setInpChan n { x with gain := gain, dly := dly, bqOld := bqChanges (s0.inpSections n) (s.inpSections n) 0 }

/-- Saturated samples of a channel (R186). -/
def State.inpSat (s : State) (n k : Nat) : State :=
  if k == 0 then s
  else ((s.wr F.INPn_STAT_SAT 1 [n]).count F.INP_CNT_SAT_V [] k).raise F.INP_EVT_SAT

/-- The channels that do anything: those with a source, with state, or with a line. -/
def State.inpActive (s : State) : List Nat :=
  (List.range 2048).filter fun n =>
    s.rd F.INPn_SRC_KIND [n] != 0 || (s.inp.lookup n).isSome || (s.lineOf 0 n).isSome

/-- The source samples of a channel (R185). -/
def State.inpSource (s : State) (net ports : Tab (List Int)) (n : Nat) : List Int :=
  let i := s.rd F.INPn_SRC_INDEX [n]
  match s.rd F.INPn_SRC_KIND [n] with
  | 1 => Tab.get zeros32 net i
  | 2 => Tab.get zeros32 ports i
  | _ => zeros32

/-- Gain, polarity and delay of a channel over one block; the result waits for the cores. -/
def State.inputChannel (net ports : Tab (List Int)) (s : State) (n : Nat) : State :=
  let x := s.inpChan n
  let raw := List.zipWith scale (s.inpSource net ports n) x.gain.block
  let xs := raw.map satQ23
  let s := s.inpSat n (List.zipWith (fun a b => if a = b then (0 : Nat) else 1) raw xs).sum
  let s := match s.lineOf 0 n with
    | some (k, _) => s.lineWrite k xs
    | none => s
  let line := s.lineOf 0 n
  let start := match line with
    | some (_, l) => l.total - 32
    | none => 0
  let (s, ys) := s.readDelay line x.dly xs start false
  let s := s.setInpChan n { x with gain := x.gain.step, dly := x.dly.step }
  { s with pipe := { s.pipe with inPre := Tab.set zeros32 s.pipe.inPre n ys } }

/-- The input stage on the block that was presented last. -/
def State.inputStage (s : State) (net ports : Tab (List Int)) : State :=
  let s := { s with pipe := { s.pipe with inPre := [] } }
  s.inpActive.foldl (State.inputChannel net ports) s

/-- The biquad sections of a channel on the block the cores hold (R189): the samples after section 3. -/
def State.inputFilter (s : State) (n : Nat) : State × List Int :=
  let x := s.inpChan n
  let (ys, hs, k) := bqSections x.bqOld (s.inpSections n) 0 x.bq (Tab.get zeros32 s.pipe.inPre n)
  ((s.setInpChan n { x with bq := hs, bqOld := [] }).inpSat n k, ys)

/-- All channels' samples after their sections, by channel. -/
def State.inputFilters (s : State) : State × Tab (List Int) :=
  s.inpActive.foldl (fun acc n =>
    let (t, ys) := acc.1.inputFilter n
    (t, Tab.set zeros32 acc.2 n ys)) (s, [])

/-- Readers of delays at a block boundary: a held change starts its crossfade (R233). -/
def State.inpBoundary (s : State) : State :=
  { s with inp := s.inp.map fun e => (e.1, { e.2 with dly := e.2.dly.boundary }) }

end Sys2Proof.Machine
end

