-- ==== Sys2Proof/Machine/Render.lean ====
section
/-!
DEFINITION. The renderer (R197 to R220): panning of directions, width, gains into crosspoints, slots, the distance delay
with its fractional reads, and layout swaps. Directions are 2^32 to a turn, unit vectors in 2^−30, gains in 2^−40,
distances in 2^−40 mm. Every approximation of R218 is the exact figure with a free error within its bound (log entry
11). The live registers of objects and renderer crosspoints are read from this state.
-/

namespace Sys2Proof.Machine

def State.objRender (s : State) (n : Nat) : ObjRender := Tab.get ObjRender.init s.rend n

def State.setObjRender (s : State) (n : Nat) (x : ObjRender) : State :=
  { s with rend := Tab.set ObjRender.init s.rend n x }

/-! ## Tables (R203 to R205, R212) -/

/-- The 256 bits of a region entry. -/
def State.region (s : State) (e : Nat) : Nat :=
  ((List.range 8).map fun w => s.rd F.RGNe_w_V [e, w] * 2 ^ (32 * w)).sum

/-- A grid cell's 64 bits. -/
def State.gridCell (s : State) (x c : Nat) : Nat := s.rd F.GRIDx_c_w_V [x, c, 0] + s.rd F.GRIDx_c_w_V [x, c, 1] * 2 ^ 32

def regionType (r : Nat) : Nat := r / 2 ^ 252 % 4

/-- The rows a region uses: 3 or 4. -/
def regionRows (r : Nat) : Nat := if regionType r == 2 then 4 else 3

/-- The slot of row `i`. -/
def regionSlot (r i : Nat) : Nat := r / 2 ^ (216 + 9 * i) % 512

/-- Coefficient m(i, j) in 2^−13. -/
def regionCoef (r i j : Nat) : Int := toSigned 18 (r / 2 ^ (18 * (3 * i + j)))

/-- The candidates of a cell in their order. -/
def cellCands (w : Nat) : List Nat := (List.range (w / 2 ^ 52 % 8)).map fun i => w / 2 ^ (13 * i) % 8192

/-- The cell of a direction (R205). -/
def cellOf (az el : Int) : Nat :=
  let a := (az % 2 ^ 32).toNat / 2 ^ 25
  let e := min 63 ((el / 65536 + 16384) / 512).toNat
  128 * e + a

/-! ## Panning one direction (R206, R207) -/

/-- A gain with a relative error of at most 2^−18; upwards a little less, so that energies stay within 2^−17 (R218). -/
def State.nearGain (s : State) (tag n k : Nat) (g : Int) : Int :=
  g + g * s.drawIn .render [(tag : Int), (n : Int), (k : Int)] (-4194304) 4194272 / 2 ^ 40

/-- The unit vector of a direction. -/
def unitVector (az el : Int) : Int × Int × Int :=
  let c := cosTurn el
  (c * cosTurn az / 2 ^ 30, c * sinTurn az / 2 ^ 30, sinTurn el)

/-- M·p in 2^−43. -/
def regionGains (r : Nat) (p : Int × Int × Int) : List Int :=
  (List.range (regionRows r)).map fun i => regionCoef r i 0 * p.1 + regionCoef r i 1 * p.2.1 + regionCoef r i 2 * p.2.2

def smallest (g : List Int) : Int := g.foldl min (g.headD 0)

/-- The chosen candidate with its gains, and whether one qualified. -/
def chooseRegion (tol : Int) (l : List (Nat × List Int)) : Option (Nat × List Int) × Bool :=
  match l.find? fun c => c.2.all fun g => decide (-tol ≤ g) with
  | some c => (some c, true)
  | none =>
    (l.foldl (fun (b : Option (Nat × List Int)) c =>
      match b with
      | none => some c
      | some d => if smallest d.2 < smallest c.2 then some c else b) none, false)

/-- Gains by output bus. -/
abbrev Gains := List (Nat × Int)

/-- Scales gains so that their squares sum to 1, within the bound of R218. -/
def State.normalise (s : State) (tag n k : Nat) (g : Gains) : Gains :=
  let root := isqrt ((g.map fun e => (e.2 * e.2).toNat).sum)
  if root == 0 then []
  else g.map fun e => (e.1, s.nearGain tag n k (roundDiv (e.2 * 2 ^ 40) root))

/-- Pans a direction in layout `x` (R206, R207): gains by bus, and whether a candidate qualified. `k` numbers the
directions of an object. -/
def State.pan (s : State) (x n k : Nat) (az el : Int) : Gains × Bool :=
  let cell := s.gridCell x (cellOf az el)
  let p := unitVector (az + s.dirErr 10 n k) (el + s.dirErr 11 n k)
  let tol : Int := (s.rd F.QNC_LAYx_TOL_TOL [x] : Int) * 2 ^ 23
  let (c, ok) := chooseRegion tol ((cellCands cell).map fun e => (e, regionGains (s.region e) p))
  match c with
  | none => ([], ok)
  | some (e, g) =>
    let r := s.region e
    let named := (List.range (regionRows r)).map fun i => (regionSlot r i, g.getD i 0)
    let real := named.filter fun q => decide (0 < q.2) && s.on F.QNC_LAYx_SPKs_EN [x, q.1]
    (s.normalise 12 n (64 * x + k) (real.map fun q => (s.rd F.QNC_LAYx_SPKs_OUT [x, q.1], q.2)), ok)

/-! ## Width (R208, R209) -/

/-- W in 2^32 to a turn, from the object's size, spread and distance. -/
def State.objWidth (s : State) (x n : Nat) (d : Int) : Int :=
  let o := s.obj n
  let size := o.size.cur
  let bySize : Int :=
    if size ≤ 0 then 0 else if d == 0 then 2 ^ 31 else 2 * (atan2Turn (size * 2 ^ 24) d + s.angleErr 13 n)
  let w := max (max o.spread.cur bySize) 0
  let near : Int := s.rd F.QNC_LAYx_NEAR_RNEAR [x] * 2 ^ 40
  let w := if d < near then w + (2 ^ 31 - w) * (near - d) / near else w
  clampInt 0 (2 ^ 31) w

def dot (a b : Int × Int × Int) : Int := (a.1 * b.1 + a.2.1 * b.2.1 + a.2.2 * b.2.2) / 2 ^ 30

/-- A vector of length 1. -/
def unitOf (a : Int × Int × Int) : Int × Int × Int :=
  let r := isqrt (a.1 * a.1 + a.2.1 * a.2.1 + a.2.2 * a.2.2).toNat
  if r == 0 then a else (a.1 * 2 ^ 30 / r, a.2.1 * 2 ^ 30 / r, a.2.2 * 2 ^ 30 / r)

/-- The part of an axis perpendicular to `p`. -/
def perpendicular (axis p : Int × Int × Int) : Int × Int × Int :=
  let c := dot axis p
  unitOf (axis.1 - c * p.1 / 2 ^ 30, axis.2.1 - c * p.2.1 / 2 ^ 30, axis.2.2 - c * p.2.2 / 2 ^ 30)

def cross (a b : Int × Int × Int) : Int × Int × Int :=
  ((a.2.1 * b.2.2 - a.2.2 * b.2.1) / 2 ^ 30, (a.2.2 * b.1 - a.1 * b.2.2) / 2 ^ 30, (a.1 * b.2.1 - a.2.1 * b.1) / 2 ^ 30)

/-- Azimuth and elevation of the virtual direction `k` (R209). -/
def virtualDir (p : Int × Int × Int) (cosEl theta : Int) (k : Nat) : Int × Int :=
  let u := perpendicular (if cosEl < 4194304 then (2 ^ 30, 0, 0) else (0, 0, 2 ^ 30)) p
  let v := cross p u
  let phi : Int := 536870912 * (k : Int)
  let c := cosTurn theta
  let su := sinTurn theta * cosTurn phi / 2 ^ 30
  let sv := sinTurn theta * sinTurn phi / 2 ^ 30
  let part := fun (a b e : Int) => (c * a + su * b + sv * e) / 2 ^ 30
  let qx := part p.1 u.1 v.1
  let qy := part p.2.1 u.2.1 v.2.1
  let qz := part p.2.2 u.2.2 v.2.2
  (atan2Turn qy qx % 2 ^ 32, atan2Turn qz (isqrt (qx * qx + qy * qy).toNat))

/-- Adds weighted squares of gains, by bus. -/
def addSquares (acc : Tab Nat) (num : Nat) (g : Gains) : Tab Nat :=
  g.foldl (fun acc e => Tab.put acc e.1 (some (Tab.get 0 acc e.1 + num * (e.2 * e.2).toNat))) acc

/-- The roots of accumulated squares over a denominator. -/
def State.rootGains (s : State) (tag n den : Nat) (sq : Tab Nat) : Gains :=
  (sq.map fun e => (e.1, s.nearGain tag n e.1 (isqrt (e.2 / den)))).filter fun e => decide (0 < e.2)

/-- The panned set of an object in one layout before its limit, and the directions without a qualified region. -/
def State.panObject (s : State) (x n : Nat) (az el w : Int) : Gains × Nat :=
  if w == 0 then
    let (g, ok) := s.pan x n 8 az el
    (g, if ok then 0 else 1)
  else
    let p := unitVector az el
    let pans := (List.range 8).map fun k =>
      let (a, e) := virtualDir p (cosTurn el) (w / 2) k
      s.pan x n k (a + s.dirErr 14 n k) (clampInt (-(2 ^ 30)) (2 ^ 30) (e + s.dirErr 15 n k))
    (s.rootGains 16 n 8 (pans.foldl (fun acc q => addSquares acc 1 q.1) []),
      (pans.filter fun q => !q.2).length)

/-! ## The limit of loudspeakers (R210) -/

/-- Decreasing gain, and among equal gains the lower bus first. -/
def louder (a b : Nat × Int) : Bool := decide (b.2 < a.2) || (a.2 == b.2 && decide (a.1 ≤ b.1))

/-- Keeps the largest gains; the kept set has an energy of 1. Also: how many were dropped. -/
def State.limitSet (s : State) (tag n k : Nat) (g : Gains) : Gains × Nat :=
  let kept := (insertSort louder g).take k
  (s.normalise tag n k kept, g.length - k)

/-- The set of an object in one layout: gains, drops and directions without a qualified region. -/
def State.layoutSet (s : State) (x n : Nat) (az el : Int) (w : Int) : Gains × Nat × Nat :=
  let (g, miss) := s.panObject x n az el w
  let limit := s.rd F.QNC_LAYx_CFG_MAXSPK_M1 [x] + 1
  if w == 0 && decide (g.length ≤ limit) then (insertSort louder g, 0, miss)
  else
    let (g, drop) := s.limitSet 17 n limit g
    (g, drop, miss)

/-! ## Layout swaps (R219) -/

/-- The progress of a layout crossfade at the present block: j and N, while the old layout takes part. -/
def State.swapProgress (s : State) : Option (Nat × Nat) :=
  match s.swapAt with
  | some (b, n) => if s.time.block < b + n then some (s.time.block - b, n) else none
  | none => none

/-- The set of an object, over both layouts while they cross. -/
def State.objectSet (s : State) (n : Nat) (az el d : Int) : Gains × Nat × Nat :=
  let live := s.rd F.QNC_STAT_LIVE
  match s.swapProgress with
  | none => s.layoutSet live n az el (s.objWidth live n d)
  | some (j, k) =>
    let old := s.rd F.QNC_STAT_FROM
    let (g0, drop0, miss0) := s.layoutSet old n az el (s.objWidth old n d)
    if j == 0 then (g0, drop0, miss0)
    else
      let (g1, drop1, miss1) := s.layoutSet live n az el (s.objWidth live n d)
      let merged := s.rootGains 18 n k (addSquares (addSquares [] (k - j) g0) j g1)
      let (g, drop) := s.limitSet 19 n 32 merged
      (g, drop0 + drop1 + drop, miss0 + miss1)

/-- The layout whose distance law, reference distance and near radius apply: at the block of the swap the old one alone, then the
live one (DESIGN CHOICE while both are rendered, log entry 69). -/
def State.lawLayout (s : State) : Nat :=
  match s.swapProgress with
  | some (0, _) => s.rd F.QNC_STAT_FROM
  | _ => s.rd F.QNC_STAT_LIVE

/-- SWAP_DONE: the old layout has left. -/
def State.swapEnd (s : State) : State :=
  match s.swapAt with
  | some (b, n) =>
    if b + n ≤ s.time.block then
      { ((s.wr F.QNC_STAT_FADING 0).raise F.QNC_EVT_SWAP_DONE) with swapAt := none }
    else s
  | none => s

/-- A commit changes QNC_CTRL.ACTIVE (R219). -/
def State.qncApply (s0 s : State) (hard : Bool) : State :=
  let new := s.rd F.QNC_CTRL_ACTIVE
  if s0.rd F.QNC_CTRL_ACTIVE == new && !hard then s
  else
    let n := if hard then 0 else s.msBlocks (s.rd F.QNC_CTRL_LXF)
    let s := (s.wr F.QNC_STAT_FROM (s.rd F.QNC_STAT_LIVE)).wr F.QNC_STAT_LIVE new
    if n == 0 then { s with swapAt := none } else { s.wr F.QNC_STAT_FADING 1 with swapAt := some (s.time.block, n) }

/-! ## Gains into crosspoints (R211 to R213) -/

/-- The distance gain as a numerator over DSTEP × 2^40, in Q4.20. -/
def State.distGain (s : State) (x : Nat) (d : Int) : Int × Nat :=
  let den := s.rd F.QNC_LAYx_DIST_DSTEP [x] * 2 ^ 40
  let i := d.toNat / den
  let t := fun k => (s.rd F.QNC_LAYx_DISTi_GAIN [x, k] : Int)
  if 255 ≤ i then (t 255 * den, den) else (t i * den + (t (i + 1) - t i) * (d.toNat % den : Nat), den)

/-- G in Q1.20 of a gain. -/
def gainCode20 (g : Int) : Int := clampInt 0 2097151 (roundDiv g 1048576)

/-- X of R211. -/
def crosspointX (g a : Int) (l : Int × Nat) : Int := min 0xFFFFFF (roundDiv (g * l.1 * a) (l.2 * 2 ^ 40))

/-- The lowest `k` slots not in use. -/
def freeSlots (used : List Nat) : List Nat := (List.range 32).filter fun k => !used.contains k

/-- Slots by R213: the placed buses with their gains, the slots they take, and how many buses were deferred. -/
def placeSlots (before : List RendSlot) (set : Gains) : List (Nat × Nat × Int) × Nat :=
  let held := before.filter fun r => !r.leaving
  let stay := held.filterMap fun r => (set.lookup r.bus).map fun g => (r.slot, r.bus, g)
  let enter := set.filter fun e => !held.any fun r => r.bus == e.1
  let free := freeSlots (held.map (·.slot))
  (stay ++ List.zipWith (fun k e => (k, e.1, e.2)) free enter, enter.length - free.length)

/-- The crosspoints of a block: placed buses, then those that leave. -/
def nextSlots (before : List RendSlot) (placed : List (Nat × Nat × Int)) : List RendSlot :=
  let held := before.filter fun r => !r.leaving
  let old := fun slot bus => match held.find? fun r => r.slot == slot && r.bus == bus with
    | some r => r.x1
    | none => 0
  let go := held.filter fun r => !placed.any fun p => p.2.1 == r.bus
  placed.map (fun p => { slot := p.1, bus := p.2.1, x0 := old p.1 p.2.1, x1 := p.2.2 : RendSlot })
    ++ go.map fun r => { r with x0 := r.x1, x1 := 0, leaving := true }

/-- Counts NOREGION for an object. -/
def State.noRegion (s : State) (n k : Nat) : State :=
  if k == 0 then s
  else ((s.wr F.QNC_OBJn_STAT_NOREGION 1 [n]).count F.QNC_CNT_NOREGION_V [] k).raise F.QNC_EVT_NOREGION

/-- The crosspoints of an enabled object at step 4. -/
def State.renderGains (s : State) (n : Nat) (az el d : Int) : State :=
  let law := s.lawLayout
  let before := (s.objRender n).slots
  let (set, drop, miss) := s.objectSet n az el d
  let (placed, deferred) := placeSlots before set
  let placed := if deferred == 0 then placed
    else
      let g := s.normalise 20 n 0 (placed.map fun p => (p.2.1, p.2.2))
      placed.map fun p => (p.1, p.2.1, (g.lookup p.2.1).getD 0)
  let l := s.distGain law d
  let a := db64Gain (s.obj n).gainCode
  let xs := placed.map fun p => (p.1, p.2.1, crosspointX (gainCode20 p.2.2) a l)
  let w := (roundDiv (s.objWidth law n d) 65536).toNat
  let s := ((s.noRegion n miss).count F.QNC_CNT_CAPPED_V [] drop).count F.QNC_CNT_DEFER_V [] deferred
  s.setObjRender n { s.objRender n with slots := nextSlots before xs, nspk := placed.length, width := min 32768 w }

/-! ## The distance delay (R215, R216) -/

/-- D of R215 with 14 fractional bits, and whether it was clamped. -/
def State.renderedDelay (s : State) (n : Nat) (d : Int) : Nat × Bool :=
  let dref : Int := s.rd F.QNC_LAYx_DREF_DREF [s.lawLayout] * 2 ^ 40
  let far := max 0 (d - dref)
  let v := 65536 + (roundDiv (far * (s.rateHz : Int)) (s.rd F.QNC_SOS_SOS * 2 ^ 26)).toNat
  match s.lineOf 1 n with
  | some (_, l) => if (l.capacity - 69) * 16384 < v then ((l.capacity - 69) * 16384, true) else (v, false)
  | none => (v, false)

/-- The move of a reader to delay `d` (R216): a sweep, a crossfade, or a held change. Also: whether it jumps. -/
def ObjRender.move (x : ObjRender) (jump d : Nat) (fresh : Bool) : ObjRender × Bool :=
  match (if fresh then none else x.d1) with
  | none => ({ x with d0 := d, d1 := some d, xf := none, held := none }, false)
  | some p =>
    match x.xf with
    | some (a, b, k) =>
      if k < 960 then ({ x with held := some d, d0 := b, d1 := some b, xf := some (a, b, k) }, false)
      else if ((d : Int) - b).natAbs ≤ jump * 16384 then ({ x with d0 := b, d1 := some d, xf := none, held := none }, false)
      else ({ x with d0 := d, d1 := some d, xf := some (b, d, 0), held := none }, true)
    | none =>
      if ((d : Int) - p).natAbs ≤ jump * 16384 then ({ x with d0 := p, d1 := some d, held := none }, false)
      else ({ x with d0 := d, d1 := some d, xf := some (p, d, 0), held := none }, true)

/-- The delay of an object at step 4, whether it renders or not (R215, R216; log entry 134). An object that has just been enabled
has no earlier delay. -/
def State.renderDelay (s : State) (n : Nat) (d : Int) : State :=
  let en := s.on F.QNC_OBJn_CFG_EN [n]
  let x := s.objRender n
  if !s.on F.QNC_OBJn_CFG_DLY_EN [n] then
    s.setObjRender n { x with d0 := 0, d1 := none, xf := none, held := none, ran := en }
  else
    let (v, clamped) := s.renderedDelay n d
    let fresh := (en && !x.ran) || match s.lineOf 1 n with
      | some (_, l) => l.total == 0
      | none => true
    let (x, jumps) := x.move (s.rd F.QNC_DOPP_DJUMP) v fresh
    let s := s.setObjRender n { x with ran := en }
    let s := if clamped then
        ((s.wr F.QNC_OBJn_STAT_DCLAMP 1 [n]).count F.QNC_CNT_DCLAMP_V).raise F.QNC_EVT_DCLAMP else s
    if jumps then s.count F.QNC_CNT_DJUMP_V else s

/-- An object that does not render: its crosspoints go to 0 within this block (R214). -/
def State.unrender (s : State) (n : Nat) : State :=
  let x := s.objRender n
  s.setObjRender n { x with slots := nextSlots x.slots [], nspk := 0, width := 0 }

/-- Step 4 of R21 for one object. -/
def State.renderObject (s : State) (n : Nat) : State :=
  let en := s.on F.QNC_OBJn_CFG_EN [n]
  if en || s.on F.QNC_OBJn_CFG_DLY_EN [n] || (s.rend.lookup n).isSome then
    let (az, el, d) := s.objAed n
    let (az, el) := if d == 0 then (0, 0) else (az, el)
    (if en then s.renderGains n az el d else s.unrender n).renderDelay n d
  else s

/-- Step 4 of R21. -/
def State.renderAll (s : State) : State := (List.range s.objCount).foldl State.renderObject s

/-! ## Object signals (R198, R216, R217) -/

/-- The Lagrange weight of tap `k` (−3 to 4) at a fraction of `mu` / 2^14, in Q2.22. -/
def lagrange (mu k : Int) : Int :=
  let js := ([-3, -2, -1, 0, 1, 2, 3, 4] : List Int).filter fun j => j != k
  let num := js.foldl (fun a j => a * (mu - j * 16384)) 1
  let den := js.foldl (fun a j => a * ((k - j) * 16384)) 1
  roundDiv (if 0 < den then num * 4194304 else -(num * 4194304)) den.natAbs

/-- The delays of a block's 32 reads of one tap that moves from `a` to `b`. -/
def sweepDelays (a b : Nat) : List Nat :=
  (List.range 32).map fun (j : Nat) => (roundDiv ((a : Int) * 32 + ((b : Int) - a) * ((j : Int) + 1)) 32).toNat

/-- Combines eight samples for each read. -/
def combineTaps : List Nat → List Int → List Int
  | [], _ => []
  | d :: ds, xs =>
    let mu : Int := (d % 16384 : Nat)
    let sum := (List.zipWith (fun (k : Nat) x => lagrange mu ((k : Int) - 3) * x) (List.range 8) (xs.take 8)).sum
    satQ23 (roundDiv (clampInt (-(2 ^ 55)) (2 ^ 55 - 1) sum) 4194304) :: combineTaps ds (xs.drop 8)

/-- One tap's fractional reads over the block just written. -/
def State.fractional (s : State) (k : Nat) (l : LineState) (ds : List Nat) : State × List Int :=
  let start := l.total - 32
  let req := (List.zipWith (fun (j d : Nat) => (List.range 8).map fun (m : Nat) =>
    (start + j, ((start + j : Nat) : Int) - ((d / 16384 : Nat) : Int) - ((m : Int) - 3))) (List.range 32) ds).flatten
  let (s, xs) := s.tapRead k l req
  (s, combineTaps ds xs)

/-- The delayed signal of an object whose line has taken the block; without a line it is open (log entry 134). -/
def State.delayedSignal (s : State) (n : Nat) : State × List Int :=
  let x := s.objRender n
  match s.lineOf 1 n, x.d1 with
  | some (k, l), some d =>
    match x.xf with
    | some (a, b, j) =>
      let (s, old) := s.fractional k l (List.replicate 32 a)
      let (s, new) := s.fractional k l (List.replicate 32 b)
      (s.setObjRender n { x with xf := some (a, b, min 960 (j + 32)) },
        (List.range 32).map fun i => tapMix (j + i + 1) (old.getD i 0) (new.getD i 0))
    | none => s.fractional k l (sweepDelays x.d0 d)
  | _, _ => (s, (List.range 32).map fun (j : Nat) => satQ23 (s.drawIn .render [21, (n : Int), (j : Int)] (-8388608) 8388607))

/-- The signal of an object over the block that the cores have passed on (R198). -/
def State.objectSignal (s : State) (inputs : Tab (List Int)) (n : Nat) : State × List Int :=
  let xs := Tab.get zeros32 inputs (s.rd F.QNC_OBJn_CFG_SRC [n])
  if s.on F.QNC_OBJn_CFG_DLY_EN [n] then
    let s := match s.lineOf 1 n with
      | some (k, _) => s.lineWrite k xs
      | none => s
    s.delayedSignal n
  else (s, xs)

/-- DELAY_XFADE_END of an object's reader. -/
def State.objXfadeEnd (s : State) (n : Nat) : State :=
  let x := s.objRender n
  match x.xf with
  | some (_, b, k) => if 960 ≤ k then s.setObjRender n { x with d0 := b, d1 := some b, xf := none } else s
  | none => s

end Sys2Proof.Machine
end

