-- ==== Sys2Proof/Machine/Mix.lean ====
section
/-!
DEFINITION. The mix fabric (R223 to R230): renderer and direct crosspoints, their ramps, route changes with ghosts, and
the sums of the buses in units of 2^−47. Direct crosspoints are numbered from 0 here: crosspoint 32,768 of the store is
number 0. FADING, MIX_STAT and MIX_ACTIVE are read live.
-/

namespace Sys2Proof.Machine

/-! ## Direct crosspoints (R224, R228 to R230) -/

def State.xpoint (s : State) (x : Nat) : Option Crosspoint := s.xp.lookup x

def State.setXpoint (s : State) (x : Nat) (c : Option Crosspoint) : State := { s with xp := Tab.put s.xp x c }

/-- A crosspoint at a boundary: a ghost and a release that have reached 0 are over (R230). -/
def Crosspoint.over (c : Crosspoint) : Option Crosspoint :=
  let ghost := c.ghost.filter fun g => g.gain.moving
  if c.releasing && !c.route.gain.moving && ghost.isNone then none else some { c with ghost := ghost }

/-- FADING or RELEASING. -/
def Crosspoint.fading (c : Crosspoint) : Bool :=
  match c.over with
  | some c => c.ghost.isSome || c.releasing
  | none => false

/-- The signed gain that the words of a crosspoint set (R224). -/
def State.xpGain (s : State) (x : Nat) : Int :=
  let g : Int := s.rd F.XPDx_W0_GAIN [x]
  if s.on F.XPDx_W0_POL [x] then -g else g

/-- The route of a crosspoint's words with a ramp. -/
def State.xpRoute (s : State) (x : Nat) (gain : Ramp) : Route :=
  { kind := s.rd F.XPDx_W1_SKIND [x], src := s.rd F.XPDx_W1_SRC [x], bus := s.rd F.XPDx_W1_BUS [x], gain := gain }

def Route.same (a b : Route) : Bool := a.kind == b.kind && a.src == b.src && a.bus == b.bus

/-- The route of an idle, enabled crosspoint changes: the old one becomes the ghost. -/
def Crosspoint.reroute (c : Crosspoint) (new : Route) (g : Int) (n : Nat) : Crosspoint :=
  { route := { new with gain := Ramp.to (Ramp.still 0) g n }
    ghost := if n == 0 then none else some { c.route with gain := c.route.gain.to 0 n } }

/-- The route of a crosspoint goes to 0. -/
def Crosspoint.release (c : Crosspoint) (n : Nat) : Option Crosspoint :=
  if n == 0 && c.ghost.isNone then none
  else some { c with releasing := true, route := { c.route with gain := c.route.gain.to 0 n } }

/-- A crosspoint takes its committed words (R230); `s0` is the state before the swap, `hard` starts no ramps. -/
def State.xpApply (s0 : State) (hard : Bool) (s : State) (x : Nat) : State :=
  let en := s.on F.XPDx_W0_EN [x]
  let g := s.xpGain x
  let n := s.rampSamples (s.rd F.XPDx_W1_RAMP [x])
  let new := s.xpRoute x (Ramp.still g)
  match (s.xpoint x).bind Crosspoint.over with
  | none =>
    if en then s.setXpoint x (some { route := if hard then new else { new with gain := Ramp.to (Ramp.still 0) g n } })
    else s.setXpoint x none
  | some c =>
    if hard then s.setXpoint x (if en then some { route := new } else none)
    else if !en then (if c.releasing then s else s.setXpoint x (c.release n))
    else if c.releasing then s.setXpoint x (some { c with releasing := false, route := { c.route with gain := c.route.gain.to g n } })
    else if !c.route.same new then s.setXpoint x (some (c.reroute new g n))
    else if s0.xpGain x == g then s
    else s.setXpoint x (some { c with route := { c.route with gain := c.route.gain.to g n } })

/-- GHOST_RELEASE: the ghost has reached 0. -/
def State.ghostRelease (s : State) (x : Nat) : State :=
  match s.xpoint x with
  | some c => match c.ghost with
    | some g => if g.gain.moving then s else s.setXpoint x (some { c with ghost := none })
    | none => s
  | none => s

/-- ROUTE_RELEASE: the gain of a releasing route, and any ghost, have reached 0. -/
def State.routeRelease (s : State) (x : Nat) : State :=
  match s.xpoint x with
  | some c =>
    let quiet := match c.ghost with
      | some g => !g.gain.moving
      | none => true
    if c.releasing && !c.route.gain.moving && quiet then s.setXpoint x none else s
  | none => s

/-- Samples until a crosspoint is neither FADING nor RELEASING. -/
def Crosspoint.fadeLeft (c : Crosspoint) : Nat :=
  max (match c.ghost with | some g => g.gain.n - g.gain.k | none => 0)
    (if c.releasing then c.route.gain.n - c.route.gain.k else 0)

/-! ## Sums (R214, R226) -/

/-- A route's product with its source over a block, in 2^−47. -/
def Route.products (r : Route) (xs : List Int) : List Int := List.zipWith (fun x g => 16 * (x * g)) xs r.gain.block

/-- A renderer crosspoint's products. -/
def RendSlot.products (r : RendSlot) (xs : List Int) : List Int :=
  let ramp : Ramp := { g0 := r.x0, g1 := r.x1, n := 32, k := 0 }
  List.zipWith (fun x g => 16 * (x * g)) xs ramp.block

/-- Adds products into a bus. -/
def addBus (t : Tab (List Int)) (bus : Nat) (xs : List Int) : Tab (List Int) :=
  Tab.put t bus (some (addBlock (Tab.get zeros32 t bus) xs))

/-- The samples of a route's source. -/
def Route.source (r : Route) (inputs objects : Tab (List Int)) : List Int :=
  Tab.get zeros32 (if r.kind == 0 then inputs else objects) r.src

/-- The products of all crosspoints, by bus. -/
def State.busSums (s : State) (inputs objects : Tab (List Int)) : Tab (List Int) :=
  let direct := s.xp.foldl (fun t e =>
    let t := addBus t e.2.route.bus (e.2.route.products (e.2.route.source inputs objects))
    match e.2.ghost with
    | some g => addBus t g.bus (g.products (g.source inputs objects))
    | none => t) []
  s.rend.foldl (fun t e => e.2.slots.foldl (fun t r => addBus t r.bus (r.products (Tab.get zeros32 objects e.1))) t) direct

/-- The limits of the 56-bit accumulator (R226). -/
def satBus (v : Int) : Int := clampInt (-36028797018963968) 36028797018963967 v

/-- Saturated samples of an output: R226 and R227. -/
def State.outSat (s : State) (n k : Nat) : State :=
  if k == 0 then s
  else ((s.wr F.OUTn_STAT_SAT 1 [n]).count F.OUTn_CNT_SAT_V [n] k).raise F.MIX_EVT_SAT

/-- How many values of a block a function changes. -/
def changedBy (f : Int → Int) (xs : List Int) : Nat := (xs.map fun x => if f x = x then (0 : Nat) else 1).sum

/-- The objects whose signal is formed: rendered ones, those with a delay, and sources of routes. -/
def State.soundingObjects (s : State) : List Nat :=
  (List.range s.objCount).filter fun n =>
    s.on F.QNC_OBJn_CFG_EN [n] || s.on F.QNC_OBJn_CFG_DLY_EN [n] || (s.rend.lookup n).isSome
      || s.xp.any fun e => (e.2.route.kind == 1 && e.2.route.src == n)
        || (match e.2.ghost with | some g => g.kind == 1 && g.src == n | none => false)

/-- The signals of objects, by object. -/
def State.objectSignals (s : State) (inputs : Tab (List Int)) : State × Tab (List Int) :=
  s.soundingObjects.foldl (fun acc n =>
    let (t, xs) := acc.1.objectSignal inputs n
    (t, Tab.set zeros32 acc.2 n xs)) (s, [])

/-- The bus sums of a block; the ramps of the fabric move on. -/
def State.mixBuses (s : State) (inputs : Tab (List Int)) : State × Tab (List Int) :=
  let (s, objects) := s.objectSignals inputs
  let sums := s.busSums inputs objects
  let s := sums.foldl (fun s e => s.outSat e.1 (changedBy satBus e.2)) s
  let step := fun (r : Route) => { r with gain := r.gain.step }
  let s := { s with xp := s.xp.map fun e => (e.1, { e.2 with route := step e.2.route, ghost := e.2.ghost.map step }) }
  (s, sums.map fun e => (e.1, e.2.map satBus))

end Sys2Proof.Machine
end

