-- ==== Sys2Proof/Machine/Room.lean ====
section
/-!
DEFINITION. Room correction (R243 to R262): the coefficient cells, the filters they hold, the convolution with its
crossfade, and the staging engine. CNV_STAT, CNV_LIVE and CNV_OUTn_STAT are read live.
-/

namespace Sys2Proof.Machine

/-! ## Cells (R243, R244, R252, R253) -/

/-- What an unlisted byte of the coefficient store reads as (log entry 22). -/
def cellBlank : Byte := 0

/-- The byte of a bank's cell. -/
def cellAddr (bank cell : Nat) : Nat := 0xC00000 * bank + 6 * cell

/-- The 48 bits of a cell. -/
def State.cell (s : State) (bank cell : Nat) : Nat := ofLe (Memory.readBytes cellBlank s.cells (cellAddr bank cell) 6)

def State.cellWrite (s : State) (a : Nat) (bs : List Byte) : State :=
  { s with cells := Memory.writeBytes cellBlank s.cells a bs }

def roundUp (n unit : Nat) : Nat := (n + unit - 1) / unit * unit

/-- C(LEN) of R244. -/
def cellsOf (len : Nat) : Nat :=
  if len ≤ 512 then roundUp len 16 else if len ≤ 2048 then roundUp len 256
  else if len ≤ 8192 then roundUp len 1024 else roundUp len 4096

/-- The partitions of a filter of `c` cells beyond the head: first tap and size, which lie at the same cell (R251). -/
def partitionsOf (c : Nat) : List (Nat × Nat) :=
  let part := fun lo hi p => (List.range ((min c hi - lo) / p)).map fun i => (lo + i * p, p)
  part 512 2048 256 ++ part 2048 8192 1024 ++ part 8192 16384 4096

/-- The cells of a filter. -/
def Filter.cells (f : Filter) : Nat := cellsOf f.len

/-- Two ranges of cells meet. -/
def Filter.meets (f : Filter) (bank cell count : Nat) : Bool :=
  f.bank == bank && decide (f.base < cell + count) && decide (cell < f.base + f.cells)

/-! ## The transform of a partition (R253, R254) -/

/-- The Taylor series of the sine in 2^−80. -/
def sinSeries : Nat → Nat → Int → Int → Int
  | 0, _, t, _ => t
  | n + 1, k, t, x2 => t + sinSeries n (k + 2) (-(t * x2 / 2 ^ 80 / ((k + 1) * (k + 2) : Nat))) x2

/-- sin(2π·m/n) for m in the first quarter of n, in 2^−80. -/
def sinPart (m n : Nat) : Int :=
  if 4 * m = n then 2 ^ 80 else
  let x : Int := (7595904947272677161575987 * m / n : Nat)
  sinSeries 16 1 x (x * x / 2 ^ 80)

/-- sin(2π·m/n) in 2^−80; 4 divides n. -/
def sinOf (m n : Nat) : Int :=
  let q := n / 4
  let r := m % n % q
  match m % n / q with
  | 0 => sinPart r n
  | 1 => sinPart (q - r) n
  | 2 => -sinPart r n
  | _ => -sinPart (q - r) n

def cosOf (m n : Nat) : Int := sinOf (m + n / 4) n

/-- A component's value in 2^−35 of a tail cell: its mantissa at the exponent of its group. -/
def tailValue (e m : Nat) : Int := toSigned 22 m * (2 ^ e : Nat)

/-- Real and imaginary parts of the cells of a partition, in 2^−35. -/
def State.partitionCells (s : State) (f : Filter) (at' p : Nat) : List (Int × Int) :=
  (List.range p).map fun k =>
    let e := s.cell f.bank (f.base + at' + k / 16 * 16) / 2 ^ 44
    let c := s.cell f.bank (f.base + at' + k)
    (tailValue e c, tailValue e (c / 2 ^ 22))

/-- The taps of a partition from its cells, in 2^−62: the inverse of R253. -/
def partitionTaps (p : Nat) (h : List (Int × Int)) : List Int :=
  let (h0, hp) := h.headD (0, 0)
  (List.range p).map fun i =>
    let ends := (h0 + (if i % 2 == 0 then hp else -hp)) * 2 ^ 26
    let sum := (List.zipWith (fun (k : Nat) (c : Int × Int) =>
      c.1 * cosOf (k * i) (2 * p) - c.2 * sinOf (k * i) (2 * p)) ((List.range p).drop 1) (h.drop 1)).sum
    ends + roundDiv sum (2 ^ 53)

/-- The taps of a filter in 2^−62 (R246, R251, R252). -/
def State.filterTaps (s : State) (f : Filter) : List Int :=
  let c := f.cells
  let head := (List.range (min c 512)).map fun j => toSigned 24 (s.cell f.bank (f.base + j)) * 2 ^ 40
  (head ++ ((partitionsOf c).map fun q => partitionTaps q.2 (s.partitionCells f q.1 q.2)).flatten).take f.len

/-- P·H[k] of a partition's taps (Q2.22), in 2^−102 (R253): the sums are not rounded. -/
def transformTaps (p : Nat) (h : List Int) (k : Nat) : Int × Int :=
  ((List.zipWith (fun (i : Nat) x => x * cosOf (k * i) (2 * p)) (List.range p) h).sum,
   (List.zipWith (fun (i : Nat) x => -(x * sinOf (k * i) (2 * p))) (List.range p) h).sum)

/-- The mantissa of a component at exponent `e`: one rounding (R254). -/
def cellMantissa (p e : Nat) (v : Int) : Int := roundDiv v (p * 2 ^ (67 + e))

/-- The smallest exponent at which every component of a group fits (R254). -/
def groupExponent (p : Nat) (vs : List Int) : Nat :=
  ((List.range 16).find? fun e => vs.all fun v =>
    decide (-2097152 ≤ cellMantissa p e v ∧ cellMantissa p e v ≤ 2097151)).getD 15

/-- The cells of one group of 16. -/
def groupCells (p : Nat) (g : List (Int × Int)) : List Nat :=
  let e := groupExponent p (g.map (·.1) ++ g.map (·.2))
  let m := fun v : Int => ofSigned 22 (cellMantissa p e v)
  g.mapIdx fun i c => m c.1 + m c.2 * 2 ^ 22 + (if i == 0 then e * 2 ^ 44 else 0)

/-- The cells of a partition of `p` taps. -/
def partitionOf (p : Nat) (h : List Int) : List Nat :=
  let full := (List.range (p + 1)).map (transformTaps p h)
  let first := ((full.headD (0, 0)).1, (full.getD p (0, 0)).1)
  let cells := first :: (full.take p).drop 1
  ((List.range (p / 16)).map fun g => groupCells p ((cells.drop (16 * g)).take 16)).flatten

/-- The cells of a filter of taps in Q2.22 (R251 to R254). -/
def cellsOfTaps (taps : List Int) : List Nat :=
  let c := cellsOf taps.length
  let h := taps ++ List.replicate (c - taps.length) 0
  (h.take 512).map (ofSigned 24) ++ ((partitionsOf c).map fun q => partitionOf q.2 ((h.drop q.1).take q.2)).flatten

/-! ## Selections (R245, R255 to R258) -/

/-- The selected filter of an output's registers. -/
def State.selection (s : State) (n : Nat) : Option Filter :=
  if s.on F.CNV_OUTn_SEL_EN [n] then
    some { bank := s.rd F.CNV_OUTn_SEL_BANK [n], base := 16 * s.rd F.CNV_OUTn_SEL_BASE [n], len := s.rd F.CNV_OUTn_LEN_LEN [n] }
  else none

def State.outChan (s : State) (n : Nat) : OutChan := Tab.get OutChan.init s.out n

def State.setOutChan (s : State) (n : Nat) (x : OutChan) : State :=
  { s with out := Tab.set OutChan.init s.out n x }

/-- A commit that changes EN, BANK, BASE or LEN starts a crossfade (R256). -/
def State.cnvApply (s0 : State) (hard : Bool) (s : State) (n : Nat) : State :=
  let x := s.outChan n
  let new := s.selection n
  if hard then s.setOutChan n { x with filt := new, oldFilt := none }
  else if s0.word R.CNV_OUTn_SEL [n] == s.word R.CNV_OUTn_SEL [n]
      && s0.word R.CNV_OUTn_LEN [n] == s.word R.CNV_OUTn_LEN [n] then s
  else s.setOutChan n { x with filt := new, oldFilt := some (x.filt, 0) }

/-- XF_DONE: the crossfade of an output has passed its 1,024 samples. -/
def State.xfDone (s : State) (n : Nat) : State :=
  let x := s.outChan n
  match x.oldFilt with
  | some (_, k) =>
    if 1024 ≤ k then ((s.setOutChan n { x with oldFilt := none }).count F.CNV_CNT_XFADE_V).raise F.CNV_EVT_XF_DONE else s
  | none => s

/-- Live taps (R245). -/
def State.liveTaps (s : State) : Nat :=
  ((List.range s.outCount).map fun n => match s.selection n with | some f => f.cells | none => 0).sum

/-- The filters that protect cells now: selected or fading (R258). -/
def State.usedFilters (s : State) : List Filter :=
  (s.out.map fun e => e.2.filt.toList ++ (match e.2.oldFilt with | some (some f, _) => [f] | _ => [])).flatten

/-! ## The convolution (R246, R248, R256, R262) -/

/-- y of the newest sample of `hist` (newest first): the exact sum with the free error of the tail, within 120 dB below full scale,
is rounded to Q1.23 once (R248; log entry 74). -/
def State.convolve (s : State) (n j tag : Nat) (taps hist : List Int) : Int × Bool :=
  let err := if taps.length ≤ 512 then 0
    else s.drawIn .convolution [(n : Int), (j : Int), (tag : Int)] (-8796092) 8796092
  let y := roundDiv ((List.zipWith (· * ·) taps hist).sum + err * 2 ^ 42) (2 ^ 62)
  (satQ23 y, decide (satQ23 y ≠ y))

/-- A filter's samples of a block of inputs `xs` that follow `hist`: values with their saturation. -/
def State.convBlock (s : State) (n tag : Nat) (taps : Option (List Int)) : Nat → List Int → List Int → List (Int × Bool)
  | _, _, [] => []
  | j, hist, x :: xs =>
    (match taps with
      | none => (x, false)
      | some h => s.convolve n j tag h (x :: hist)) :: s.convBlock n tag taps (j + 1) (x :: hist) xs

/-- Step 3 on a part with the convolution engine: a block of `m` samples, of which the first 32 are new. -/
def State.roomStep (s : State) (n : Nat) (xs : List Int) : State × List Int :=
  let x := s.outChan n
  let taps := fun (f : Option Filter) => f.map s.filterTaps
  let new := s.convBlock n 0 (taps x.filt) 0 x.hist xs
  let hist := ((xs.take 32).reverse ++ x.hist).take 16384
  let sat := fun (l : List (Int × Bool)) => ((l.take 32).filter (·.2)).length
  let (ys, k, old) := match x.oldFilt with
    | none => (new.map (·.1), sat new, none)
    | some (f, k) =>
      let old := s.convBlock n 1 (taps f) 0 x.hist xs
      let mix := List.zipWith (fun (a : Int × Bool) (b : Int × Bool) => (a.1, b.1)) old new
      (mix.mapIdx fun i p =>
        let w := min 1024 (k + i + 1)
        satQ23 (roundDiv (((1024 - w : Nat) : Int) * p.1 + (w : Int) * p.2) 1024),
        sat new + sat old, some (f, min 1024 (k + 32)))
  let s := s.setOutChan n { x with hist := hist, oldFilt := old }
  (if k == 0 then s else (s.count F.CNV_CNT_SAT_V [] k).raise F.CNV_EVT_SAT, ys)

/-- The taps of the core FIR of an output, in Q2.22 (R262). -/
def State.firTaps (s : State) (n : Nat) : List Int :=
  (List.range (min 128 (s.rd F.OUTn_FIRLEN_LEN [n]))).map fun j => s.rdS F.OUTn_FIRj_TAP [n, j]

/-- One value of a FIR; no taps pass the input unchanged. -/
def firOne (taps hist : List Int) : Int :=
  if taps.isEmpty then hist.headD 0 else satQ23 (roundDiv (List.zipWith (· * ·) taps hist).sum 4194304)

/-- The FIR over a block, with the crossfade of a change. -/
def firBlock (taps : List Int) (old : Option (List Int)) : Nat → List Int → List Int → List Int
  | _, _, [] => []
  | j, hist, x :: xs =>
    let y := firOne taps (x :: hist)
    (match old with
      | some o => if j < 32 then roundDiv ((31 - (j : Int)) * firOne o (x :: hist) + ((j : Int) + 1) * y) 32 else y
      | none => y) :: firBlock taps old (j + 1) (x :: hist) xs

/-- Step 3 on a part without the engine. -/
def State.firStep (s : State) (n : Nat) (xs : List Int) : State × List Int :=
  let x := s.outChan n
  (s.setOutChan n { x with hist := ((xs.take 32).reverse ++ x.hist).take 16384, firOld := none },
    firBlock (s.firTaps n) x.firOld 0 x.hist xs)

/-- A change of FIRLEN or of a tap crosses over 32 samples. -/
def State.firApply (s0 : State) (hard : Bool) (s : State) (n : Nat) : State :=
  if hard || s0.firTaps n == s.firTaps n then s
  else s.setOutChan n { s.outChan n with firOld := some (s0.firTaps n) }

/-! ## The staging engine (R259, R260) -/

/-- The cells that a job writes. -/
def StageJob.cells (j : StageJob) : Nat := if j.taps then cellsOf j.count else j.count

/-- The refusal code of a job, 0 if none. -/
def State.stageCode (s : State) (j : StageJob) (protected_ : List Filter) : Nat :=
  if s.stage.isSome then 1
  else if j.cell % 16 != 0 || decide (s.tapPool < j.cell + j.cells) || j.count == 0 || (j.taps && decide (16384 < j.count)) then 4
  else if protected_.any fun f => f.meets j.bank j.cell j.cells then 2
  else if j.src % 32 != 0 || decide (s.dramBytes < j.src + j.count * (if j.taps then 4 else 6)) then 3
  else 0

/-- STAGE_GO: a job starts, or is refused. -/
def State.stageGo (s : State) (taps : Bool) (protected_ : List Filter) : State :=
  let j : StageJob :=
    { taps := taps, bank := s.rd F.CNV_STAGE_DST_BANK, cell := s.rd F.CNV_STAGE_DST_CELL, count := s.rd F.CNV_STAGE_CNT_COUNT
      src := s.rd F.CNV_STAGE_SRC_HI_V * 2 ^ 32 + s.rd F.CNV_STAGE_SRC_LO_V }
  let code := s.stageCode j protected_
  if code != 0 then (s.wr F.CNV_STAGE_STAT_ERR code).raise F.CNV_EVT_STAGE_ERR
  else { s.wr F.CNV_STAGE_STAT_BUSY 1 with stage := some j }

/-- The cells a job writes, from DRAM. -/
def State.stageCells (s : State) (j : StageJob) : List Nat :=
  if j.taps then
    cellsOfTaps ((List.range j.count).map fun i => toSigned 24 (ofLe (s.dramRead (j.src + 4 * i) 4)))
  else (List.range j.count).map fun i => ofLe (s.dramRead (j.src + 6 * i) 6)

/-- STAGE_DONE: the last cell is written. -/
def State.stageDone (s : State) : State :=
  match s.stage with
  | none => s
  | some j =>
    let s := s.cellWrite (cellAddr j.bank j.cell) ((s.stageCells j).map (leBytes 6)).flatten
    let s := { s with stage := none }
    ((s.wr F.CNV_STAGE_STAT_BUSY 0).count F.CNV_CNT_STAGED_V).raise F.CNV_EVT_STAGE_DONE

end Sys2Proof.Machine
end

