-- ==== Sys2Proof/Machine/Output.lean ====
section
/-!
DEFINITION. The output stage (R227, R237 to R241, R261): trim, delay, room correction, biquads and the final limiter.
-/

namespace Sys2Proof.Machine

/-! ## Logarithm and exponential in fixed point -/

/-- `n` bits of the binary logarithm of `m`, which lies in [1, 2) in 2^−62. -/
def log2Bits : Nat → Nat → Nat → Nat
  | 0, _, acc => acc
  | n + 1, m, acc =>
    let q := m * m / 2 ^ 62
    if 2 ^ 63 ≤ q then log2Bits n (q / 2) (2 * acc + 1) else log2Bits n q (2 * acc)

/-- The binary logarithm of a positive number in 2^−40. -/
def log2Fix (x : Nat) : Nat := log2Bits 40 (x * 2 ^ 62 / 2 ^ x.log2) x.log2

/-- The series of e^−y; `y` and the result in 2^−60. -/
def expTerms : Nat → Nat → Int → Int → Int
  | 0, _, t, _ => t
  | n + 1, k, t, y => t + expTerms n (k + 1) (-(t * y / 2 ^ 60 / k)) y

/-- e^−y in 2^−60 for `y` ≥ 0 in 2^−60: halvings by ln 2, then the series. -/
def expNeg (y : Nat) : Int := expTerms 20 1 (2 ^ 60) ((y % 799144290325165979 : Nat) : Int) / (2 ^ (y / 799144290325165979) : Nat)

/-! ## The limiter (R239 to R241) -/

/-- The level of a sample in dB relative to full scale, in 2^−32. -/
def levelDb (x : Int) : Int := ((log2Fix x.natAbs : Int) - 23 * 2 ^ 40) * 6619719610838 / 2 ^ 48

/-- r of R239 in 2^−32 dB; `c` and `k` in dB64. -/
def reduction (c : Int) (k : Nat) (x : Int) : Int :=
  if x == 0 then 0
  else
    let l := levelDb x
    let c' := c * 67108864
    let k' : Int := (k : Int) * 67108864
    if 2 * l ≤ 2 * c' - k' then 0
    else if 2 * l < 2 * c' + k' then (2 * l - 2 * c' + k') * (2 * l - 2 * c' + k') / (8 * k')
    else l - c'

/-- e^(−1000 / (RELEASE × f_int)) in 2^−60. -/
def State.releaseFactor (s : State) (n : Nat) : Int :=
  expNeg (1000 * 2 ^ 60 / (max 1 (s.rd F.OUTn_REL_RELEASE [n]) * s.rateHz))

/-- 10^(−a/20) in 2^−60 for a reduction in 2^−32 dB. -/
def gainOf (a : Int) : Int := expNeg (a.toNat * 2123759895919993451 / 2 ^ 36)

/-- The code of 10^(v/1280) in Q1.23, found exactly as `dbSearch` finds gains. -/
def ceilSearch (v : Int) : Nat → Nat → Nat
  | 0, g => g
  | b + 1, g =>
    let g' := g + 2 ^ b
    let l := (2 * g' - 1) ^ 1280
    let r := 2 ^ (24 * 1280)
    ceilSearch v b (if l * 10 ^ (-v).toNat ≤ r then g' else g)

/-- The clip limit of a ceiling: round(10^(C/20) × 2^23), at most 2^23 − 1 (R240). -/
def clipLimit (c : Int) : Int := min 8388607 (ceilSearch c 24 0 : Nat)

/-- The attack term at the head of a list of reductions (R240). -/
def attackTerm (la : Bool) (rs : List Int) : Int :=
  if la then ((rs.take 17).mapIdx fun k r => r * (17 - (k : Int)) / 17).foldl max 0 else rs.headD 0

/-- What the limiter is set to: look-ahead, release factor, clip limit. -/
structure LimSet where
  la : Bool
  rel : Int
  lim : Int

/-- One block of the limiter: outputs, the reduction at its last sample, clipped samples. `rs` are the reductions of the
samples `xs` and of those that follow. -/
def State.limit (s : State) (n : Nat) (t : LimSet) : Nat → Nat → Int → List Int → List Int → List Int × Int × Nat
  | 0, _, a, _, _ => ([], a, 0)
  | k + 1, j, a, rs, xs =>
    let a := max (attackTerm t.la rs) (a * t.rel / 2 ^ 60)
    let x := xs.headD 0
    let err := s.drawIn .limiter [(n : Int), (j : Int)] (-126570000) 126570000
    let y := if a ≤ 0 then x else roundDiv (x * (gainOf a * (2 ^ 40 + err))) (2 ^ 100)
    let z := clampInt (-t.lim) t.lim y
    let (ys, a', c) := State.limit s n t k (j + 1) a rs.tail xs.tail
    (z :: ys, a', c + if z = y then 0 else 1)

/-- Clipped samples of an output. -/
def State.outClip (s : State) (n k : Nat) : State :=
  if k == 0 then s
  else ((s.wr F.OUTn_STAT_CLIP 1 [n]).count F.OUTn_CNT_CLIP_V [n] k).raise F.MIX_EVT_CLIP

/-- Step 5 on a block of 32 samples with the 16 that follow. -/
def State.limiterStep (s : State) (n : Nat) (xs : List Int) : State × List Int :=
  let x := s.outChan n
  if s.on F.OUTn_LIM_EN [n] then
    let c := s.rdS F.OUTn_LIM_CEIL [n]
    let rs := xs.map (reduction c (s.rd F.OUTn_LIM_KNEE [n]))
    let (ys, a, clips) := s.limit n { la := s.on F.OUTn_LIM_LA [n], rel := s.releaseFactor n, lim := clipLimit c } 32 0 x.a rs xs
    let s := (s.setOutChan n { x with a := a }).outClip n clips
    (s.wr F.OUTn_STAT_GR (min 65535 (roundDiv a 67108864).toNat) [n], ys)
  else
    ((s.setOutChan n { x with a := 0 }).wr F.OUTn_STAT_GR 0 [n], xs.take 32)

/-! ## Trim and delay (R227, R237, R238) -/

/-- The signed trim that an output's registers set. -/
def State.outTrim (s : State) (n : Nat) : Int :=
  let g := db64Gain (s.rd F.OUTn_TRIM_TRIM [n])
  if s.on F.OUTn_TRIM_POL [n] then -g else g

/-- The delay of step 2 with the samples of the look-ahead. -/
def State.outDelay (s : State) (n : Nat) : Nat :=
  s.rd F.OUTn_DLY_DELAY [n] + if s.on F.OUTn_LIM_LA [n] then 16 else 0

/-- The coefficients of section `k` of an output, or none where it is disabled. -/
def State.outSection (s : State) (n k : Nat) : Option (List Int) :=
  if s.rd F.OUTn_BQ_EN [n] / 2 ^ k % 2 == 1 then
    some ((List.range 5).map fun c => s.rdS F.OUTn_BQk_Cc_COEF [n, k, c])
  else none

def State.outSections (s : State) (n : Nat) : List (Option (List Int)) := (List.range 16).map (s.outSection n)

/-- Output `n` takes its committed trim, delay and sections; `s0` is the state before the swap. -/
def State.outApply (s0 : State) (hard : Bool) (s : State) (n : Nat) : State :=
  let x := s.outChan n
  let d := s.outDelay n
  if hard then s.setOutChan n { x with trim := Ramp.still (s.outTrim n), dly := DlyReader.hard d }
  else
    let trim :=
      if s0.rd F.OUTn_TRIM_TRIM [n] == s.rd F.OUTn_TRIM_TRIM [n] && s0.on F.OUTn_TRIM_POL [n] == s.on F.OUTn_TRIM_POL [n]
      then x.trim
      else x.trim.to (s.outTrim n) (s.rampSamples (s.rd F.OUTn_TRIM_RAMP [n]))
    let dly := if s0.outDelay n == d then x.dly else x.dly.set d
    s.setOutChan n { x with trim := trim, dly := dly, bqOld := bqChanges (s0.outSections n) (s.outSections n) 0 }

/-- One tap of an output without a line, from its latest samples. -/
def rawTap (raw : List Int) (n d : Nat) : List Int :=
  (List.range n).map fun j => if 32 + d ≤ j then 0 else if 31 + d - j < raw.length then raw.getD (31 + d - j) 0 else 0

/-- Step 2 over the block just written: 32 samples and the 16 that follow. -/
def State.outputDelay (s : State) (n : Nat) (xs : List Int) : State × List Int :=
  let x := s.outChan n
  let raw := (xs.reverse ++ x.raw).take 64
  let s := s.setOutChan n { x with raw := raw }
  match s.lineOf 2 n with
  | some (k, _) =>
    let s := s.lineWrite k xs
    let line := s.lineOf 2 n
    let start := match line with
      | some (_, l) => l.total - 32
      | none => 0
    s.readDelay line x.dly xs start true
  | none =>
    (s, match x.dly.xf with
      | none => rawTap raw 48 x.dly.cur
      | some (a, b, k) =>
        let old := rawTap raw 48 a
        let new := rawTap raw 48 b
        (List.range 48).map fun j =>
          if 32 + a ≤ j then new.getD j 0 else tapMix (k + j + 1) (old.getD j 0) (new.getD j 0))

/-- The outputs that do anything. -/
def State.outActive (s : State) : List Nat :=
  (List.range s.outCount).filter fun n =>
    s.rd F.OUTn_TRIM_TRIM [n] != 0x8000 || (s.out.lookup n).isSome || (s.lineOf 2 n).isSome

/-- Steps 1 and 2, and step 3 where the part has the convolution engine; the result waits for the cores. -/
def State.outputFront (buses : Tab (List Int)) (s : State) (n : Nat) : State :=
  let x := s.outChan n
  let prod := List.zipWith (fun v g => roundDiv (v * g) (2 ^ 44)) (Tab.get zeros32 buses n) x.trim.block
  let s := s.outSat n (changedBy satQ23 prod)
  let (s, ys) := s.outputDelay n (prod.map satQ23)
  let x := s.outChan n
  let s := s.setOutChan n { x with trim := x.trim.step, dly := x.dly.step }
  let (s, zs) := if s.hasCnv then s.roomStep n ys else (s, ys)
  { s with pipe := { s.pipe with outPre := Tab.put s.pipe.outPre n (some (zs.take 32, zs.drop 32)) } }

/-- Saturated samples of the output biquads (R261). -/
def State.bqSat (s : State) (k : Nat) : State :=
  if k == 0 then s else (s.count F.OUT_CNT_BQSAT_V [] k).raise F.OUT_EVT_BQSAT

/-- What the cores compute on an output's block: the FIR where the part has no engine, the sections, the limiter. -/
def State.outputBack (s : State) (n : Nat) : State × List Int :=
  let (a, b) := Tab.get (zeros32, []) s.pipe.outPre n
  let (s, xs) := if s.hasCnv then (s, a ++ b) else s.firStep n (a ++ b)
  let x := s.outChan n
  let (ys, hs, k) := bqSections x.bqOld (s.outSections n) 0 x.bq (xs.take 32)
  let (zs, _, _) := bqSections [] (s.outSections n) 0 hs (xs.drop 32)
  let s := (s.setOutChan n { x with bq := hs, bqOld := [] }).bqSat k
  s.limiterStep n (ys ++ zs)

/-- The limiter's outputs of every output, by output. -/
def State.outputBacks (s : State) : State × Tab (List Int) :=
  (s.pipe.outPre.map (·.1)).foldl (fun acc n =>
    let (t, ys) := acc.1.outputBack n
    (t, Tab.set zeros32 acc.2 n ys)) (s, [])

/-- The output stage up to step 3 on the buses of a block. -/
def State.outputFronts (s : State) (buses : Tab (List Int)) : State :=
  let s := { s with pipe := { s.pipe with outPre := [] } }
  s.outActive.foldl (State.outputFront buses) s

/-- Delays at a block boundary (R233). -/
def State.outBoundary (s : State) : State :=
  { s with out := s.out.map fun e => (e.1, { e.2 with dly := e.2.dly.boundary }) }

/-- DELAY_XFADE_END (R233). -/
def State.delayXfadeEnd (s : State) (kind n : Nat) : State :=
  match kind with
  | 0 => s.setInpChan n { s.inpChan n with dly := (s.inpChan n).dly.finish }
  | 1 => s.objXfadeEnd n
  | 2 => s.setOutChan n { s.outChan n with dly := (s.outChan n).dly.finish }
  | _ => s

end Sys2Proof.Machine
end

