-- ==== Sys2Proof/Machine/Luveren.lean ====
section
/-!
DEFINITION. The Luveren cores: how an instruction is issued (R273 to R276, R284, R292, R305 to R309), what each does,
interrupts (R282), the block cycle (R284 to R289), and the frames that pass on at the tick. LDCc_STAT.SHADOW, REP, LSQ and
PC, LDC_RUN, LDC_PEND and LDC_OVR are read live.
-/

namespace Sys2Proof.Machine

/-! ## Which instruction stands at the program counter -/

def State.luvState (s : State) (c : Nat) : Nat := s.rd F.LDCc_STAT_STATE [c]

/-- The core executes instructions: in RUN, or in a handler in WAIT. -/
def State.luvRuns (s : State) (c : Nat) : Bool :=
  decide (c < s.coreCount) && s.audio && (s.luvState c == 1 || (s.luvState c == 2 && (s.luv c).inShadow))

/-- The instruction at the program counter, or none where the word is illegal. -/
def LuvCore.fetch (x : LuvCore) (c : Nat) (pc : BitVec 14) : Option Instr := decodeLuv c (Tab.get 0 x.prog pc.toNat)

/-- Instructions that may not stand in a delay slot or under a repeat (R276, R309). -/
def isFlow : Instr → Bool
  | .luvB _ _ _ => true
  | .luvCall _ _ _ => true
  | .luvRet _ _ => true
  | .luvRep _ _ => true
  | .luvSync _ _ => true
  | .luvWaitblk _ => true
  | _ => false

def isRti : Instr → Bool
  | .luvRti _ => true
  | _ => false

/-- The instruction may execute here (R276, R307, R309). -/
def LuvCore.legal (x : LuvCore) (c : Nat) (i : Instr) : Bool :=
  !(x.slots != 0 && (isFlow i || isRti i)) &&
  match i with
  | .luvRti _ => x.inShadow
  | .luvWaitblk _ => !x.inShadow
  | .luvRep _ _ => match x.fetch c (x.pc + 1) with
    | some j => !isFlow j
    | none => false
  | .luvCall _ k _ => !(condHolds k x.set.fw1 && decide (8 ≤ x.stack.length))
  | .luvRet _ k => !(condHolds k x.set.fw1 && x.stack.isEmpty)
  | _ => true

/-! ## Illegal instructions and the watchdog (R284, R288) -/

/-- WDOG: the event, the pair's WDOG cause, and a WDT reset where LDC_CFG.WDT_RST asks for it (R288, R345, R427). -/
def State.wdog (s : State) (c : Nat) : State :=
  let s := (s.raise F.LDCc_EVT_WDOG [c]).wr F.RED_CAUSE_CAUSE (s.rd F.RED_CAUSE_CAUSE ||| 4)
  if s.on F.LDC_CFG_WDT_RST then { s with pwr := { s.pwr with causes := s.pwr.causes ||| 4 } } else s

/-- The core halts on an illegal instruction. -/
def State.luvHalt (s : State) (c : Nat) : State :=
  (((s.wr F.LDCc_STAT_STATE 3 [c]).raise F.LDCc_EVT_ILLEGAL [c]).wdog c).setLuv c { s.luv c with rearm := false }

/-! ## Issue -/

/-- Instruction `i` stands at the program counter of a running core. -/
def State.luvAt (s : State) (c : Nat) (i : Instr) : Bool :=
  s.luvRuns c && decide ((s.luv c).fetch c (s.luv c).pc = some i)

/-- The program counter after an instruction that is no branch: a repeat keeps it, the last delay slot of a taken
branch goes to the target. -/
def LuvCore.advance (x : LuvCore) : LuvCore :=
  let x := { x with issued := x.issued + 1 }
  if 2 ≤ x.rep then { x with rep := x.rep - 1 }
  else
    let x := { x with rep := 0 }
    match x.slots with
    | 0 => { x with pc := x.pc + 1 }
    | 1 => match x.target with
      | some t => { x with pc := t, slots := 0, target := none }
      | none => { x with pc := x.pc + 1, slots := 0 }
    | n + 2 => { x with pc := x.pc + 1, slots := n + 1 }

/-- An instruction executes by `f` on its core, or halts the core where it is illegal; at another place nothing
happens. -/
def State.luvStep (s : State) (c : Nat) (i : Instr) (f : State → LuvCore → LuvCore) : State :=
  if !s.luvAt c i then s
  else if !(s.luv c).legal c i then s.luvHalt c
  else s.setLuv c (f s (s.luv c)).advance

/-- An instruction that only works on the register set: `f` gets the set as it is read and the set as it is written. -/
def State.luvSet (s : State) (c : Nat) (i : Instr) (f : LuvSet → LuvSet → LuvSet) : State :=
  s.luvStep c i fun _ x => x.withSet (f x.set x.set.tick)

/-! ## Loads and stores (R277, R297) -/

/-- The fabric address of a data-space word (R277). -/
def State.luvFabric (s : State) (c a : Nat) : Nat := s.rd F.LDCc_FWIN_BASE [c] * 524288 + 4 * (a - 0x20000)

/-- A store of a 32-bit word: at once, with PW where it is ignored, or into the queue. `f` sets the flags. -/
def State.luvStore (s : State) (c : Nat) (x : LuvCore) (p : AReg) (m : PostMod) (value : Nat) (f : LuvSet → LuvSet) :
    LuvCore :=
  let a := (x.set.p.get p).toNat
  let r := f (x.set.tick.postMod x.set p m)
  if a < 0x20000 then
    let (x, ignored) := x.write a value
    x.withSet (r.sticky 5 ignored)
  else
    { x.withSet r with lsq := x.lsq ++ [{ addr := s.luvFabric c a, store := some value, dest := 0, shadow := false }] }

/-- A load. -/
def State.luvLoad (s : State) (c : Nat) (x : LuvCore) (d : VReg) (p : AReg) (m : PostMod) : LuvCore :=
  let a := (x.set.p.get p).toNat
  let r := x.set.tick.postMod x.set p m
  if a < 0x20000 then x.withSet (r.after 1 (.v d) (s.luvRead c a))
  else
    { x.withSet r with
      lsq := x.lsq ++ [{ addr := s.luvFabric c a, store := none, dest := d, shadow := x.inShadow }] }

/-- A load or store at its place: with the queue full a fabric access stalls (R277). -/
def State.luvMem (s : State) (c : Nat) (i : Instr) (p : AReg) (f : State → LuvCore → LuvCore) : State :=
  if s.luvAt c i && decide (0x20000 ≤ ((s.luv c).set.p.get p).toNat) && decide (4 ≤ (s.luv c).lsq.length) then
    s.setLuv c { s.luv c with stalled := true, stalls := true }
  else s.luvStep c i f

/-! ## Multiply-accumulate (R270, R293 to R295) -/

/-- The four or one second operands as signed numbers, and whether a quad read was misaligned (R272). -/
def State.macSecond (s : State) (c : Nat) (r : LuvSet) (o : MacOps) : List Int × Bool :=
  match o.second with
  | .kBus p _ =>
    let a := 0x8000 + (r.p.get p).toNat % 32768
    let word := fun a => toSigned 24 (s.luvRead c a)
    if o.quad then ((List.range 4).map fun j => word (a / 4 * 4 + j), a % 4 != 0) else ([word a], false)
  | .reg n => ([r.vS n], false)
  | .quadRegs k => ((List.range 4).map fun j => r.vS (vreg (4 * k.val + j)), false)

/-- One accumulator: `op` 0 replaces, 1 adds, 2 subtracts. -/
def macValue (op : Nat) (old prod : Int) : Int := if op = 0 then prod else if op = 1 then old + prod else old - prod

/-- The accumulators of a multiply-accumulate, and whether one saturates. -/
def macWrite (op : Nat) (r : LuvSet) (first : Int) : List Int → Nat → LuvSet × Bool → LuvSet × Bool
  | [], _, acc => acc
  | k :: ks, j, (t, sat) =>
    let x := macValue op (r.w.get (wreg j)).toInt (first * k)
    macWrite op r first ks (j + 1) (t.setW (wreg j) (BitVec.ofInt 56 (sat56 x)), sat || decide (sat56 x ≠ x))

/-- MPY, MAC and MSU on a core. Where both operands use one pointer register, it moves by both steps (DESIGN CHOICE, log entry
82). -/
def State.luvMultiply (s : State) (c op : Nat) (o : MacOps) (x : LuvCore) : LuvCore :=
  let r := x.set
  let sWord := match o.sAcc with
    | some (p, _) => s.luvRead c ((r.p.get p).toNat % 131072)
    | none => 0
  let first := match o.first with
    | .reg n => r.vS n
    | .sWord => toSigned 24 sWord
  let (ks, mis) := s.macSecond c r o
  let (t, sat) := macWrite op r first ks (if o.quad then 0 else o.acc.val) (r.tick, false)
  let (t, r) := match o.sAcc with
    | some (p, m) => (t.macMod r p m 1, r.macMod r p m 1)
    | none => (t, r)
  let t := match o.second with
    | .kBus p m => t.macMod r p m (if o.quad then 4 else 1)
    | _ => t
  let t := match o.load with
    | some d => t.after 1 (.v d) sWord
    | none => t
  x.withSet ((t.flagsV sat).sticky 4 mis)

/-! ## Moves (R304) -/

/-- The source of a MOVR as 24 bits. -/
def LuvSet.movSource (r : LuvSet) : MovReg → BitVec 24
  | .v n => r.v.get n
  | .p n => BitVec.ofNat 24 (r.newest (.p n))
  | .u n => (BitVec.ofNat 18 (r.newest (.u n))).signExtend 24
  | .e n => BitVec.ofNat 24 (r.newest (.e n))
  | .fw => r.fw.zeroExtend 24

/-- The destination of a MOVR. -/
def LuvSet.movWrite (r : LuvSet) (d : MovReg) (x : BitVec 24) : LuvSet :=
  match d with
  | .v n => r.setV n x
  | .p n => r.after 2 (.p n) (x.toNat % 262144)
  | .u n => r.after 2 (.u n) (x.toNat % 262144)
  | .e n => r.after 2 (.e n) (min 131072 (x.toNat % 262144))
  | .fw => { r with fw := x.truncate 16 &&& 0x013F }

/-! ## Flow of control (R305 to R308) -/

/-- A branch, call or return: its two delay slots begin; `x` has passed it. -/
def LuvCore.branch (x : LuvCore) (taken : Bool) (target : BitVec 14) : LuvCore :=
  { x with slots := 3, target := if taken then some target else none }

def LuvCore.ticked (x : LuvCore) : LuvCore := x.withSet x.set.tick

/-- B (R306). -/
def luvBranch (k : Cond) (t : BitVec 14) (_ : State) (x : LuvCore) : LuvCore :=
  x.ticked.branch (condHolds k x.set.fw1) t

/-- CALL (R307): the return address is that of the CALL plus 3. -/
def luvCallTo (k : Cond) (t : BitVec 14) (_ : State) (x : LuvCore) : LuvCore :=
  if condHolds k x.set.fw1 then { x.ticked.branch true t with stack := (x.pc + 3) :: x.stack } else x.ticked.branch false t

/-- RET (R307). -/
def luvReturn (k : Cond) (_ : State) (x : LuvCore) : LuvCore :=
  if condHolds k x.set.fw1 then { x.ticked.branch true (x.stack.headD 0) with stack := x.stack.tail }
  else x.ticked.branch false 0

/-- REP (R305): the next word runs `n` times; 0 stands for 65,536. -/
def luvRepeat (n : RepCount) (_ : State) (x : LuvCore) : LuvCore :=
  let k := match n with
    | .imm i => i.toNat
    | .reg r => (x.set.v.get r).toNat % 65536
  { x.ticked with rep := if k = 0 then 65536 else k }

/-- REP passes itself: the repeat starts with the next word. -/
def State.luvRepStep (s : State) (c : Nat) (i : Instr) (n : RepCount) : State :=
  if !s.luvAt c i then s
  else if !(s.luv c).legal c i then s.luvHalt c
  else
    let y := luvRepeat n s (s.luv c)
    s.setLuv c { y with pc := y.pc + 1, issued := y.issued + 1 }

/-- SYNC (R278): passes once at most `n` entries are outstanding. -/
def State.luvSyncStep (s : State) (c : Nat) (i : Instr) (n : Nat) : State :=
  if s.luvAt c i && (s.luv c).legal c i && decide (n < (s.luv c).lsq.length) then
    s.setLuv c { s.luv c with stalls := true }
  else s.luvStep c i fun _ x => x.ticked

/-- RTI (R282): back to the main set at the saved address. Under a repeat of more than one run (R305) the next run finds RTI
outside a handler, which is illegal (R309). -/
def State.luvRtiStep (s : State) (c : Nat) (i : Instr) : State :=
  if !s.luvAt c i then s
  else if !(s.luv c).legal c i then s.luvHalt c
  else
    let x := s.luv c
    s.setLuv c { x with
      inShadow := false, shadow := x.shadow.tick.landAll, issued := x.issued + 1
      pc := if 2 ≤ x.rep then x.pc else x.ret, rep := if 2 ≤ x.rep then x.rep - 1 else 0 }

/-- Cycles of a block (R24). -/
def State.luvBudget (s : State) : Nat := if s.rate48 then 409600 else 204800

/-- The stalls of a block that took at most `last` cycles: free, but none where nothing could stall (R275). -/
def State.luvStalls (s : State) (c last : Nat) : Nat :=
  if (s.luv c).stalls then (s.drawIn .measure [4, (c : Int)] 0 (last : Int)).toNat % 2 ^ 20 else 0

/-- WAITBLK (R284): the block is complete once the queue is empty. The cycles it took and its stalls are free figures (log entry
85). -/
def State.luvWaitStep (s : State) (c : Nat) (i : Instr) : State :=
  if !s.luvAt c i then s
  else if !(s.luv c).legal c i then s.luvHalt c
  else
    let x := s.luv c
    if !x.lsq.isEmpty then s.setLuv c { x with stalls := true }
    else
      let last := (s.drawIn .measure [3, (c : Int)] (x.issued + 1) (max (x.issued + 1) (s.luvBudget - 1) : Nat)).toNat % 2 ^ 20
      let s := (s.wr F.LDCc_STAT_STATE 2 [c]).wr F.LDCc_STAT_CONSEC 0 [c]
      let s := (s.wr F.LDCc_CYCLES_LAST last [c]).count F.LDCc_CNT_BLOCKS_V [c]
      let s := s.wr F.LDCc_STALL_STALL (s.luvStalls c (last - 1)) [c]
      let s := s.wr F.LDCc_PEAK_PEAK (max last (s.rd F.LDCc_PEAK_PEAK [c])) [c]
      s.setLuv c { x.ticked with issued := x.issued + 1 }

/-- ILLEGAL: the word at the program counter is illegal, or illegal where it stands. -/
def State.luvIllegalStep (s : State) (c : Nat) : State :=
  if !s.luvRuns c then s
  else
    let x := s.luv c
    match x.fetch c x.pc with
    | none => s.luvHalt c
    | some i => if x.legal c i then s else s.luvHalt c

/-! ## Interrupts (R282) -/

/-- A source is pending and enabled. -/
def State.luvWants (s : State) (c : Nat) : Bool :=
  (s.word R.LDCc_IRQ_PEND [c]).toNat &&& s.rd F.LDCc_IRQ_EN_EN [c] != 0

/-- The boundary at which an interrupt is taken; the core executes or waits in WAITBLK. -/
def State.luvTakes (s : State) (c : Nat) : Bool :=
  let x := s.luv c
  decide (c < s.coreCount) && s.audio && (s.luvState c == 1 || s.luvState c == 2) && s.luvWants c
    && x.main.fw.getLsbD 8 && !x.inShadow && x.rep == 0 && x.slots == 0 && !x.stalled

/-- INTERRUPT: the shadow set, the return address, and the handler. -/
def State.luvInterrupt (s : State) (c : Nat) : State :=
  if s.luvTakes c then
    let x := s.luv c
    s.setLuv c { x with inShadow := true, ret := x.pc, main := x.main.tick.landAll, pc := BitVec.ofNat 14 (s.rd F.LDCc_VEC_IRQ_VEC [c]) }
  else s

/-- The timer's count now (R282): it falls by 1 each core cycle. -/
def State.luvTimer (s : State) (c : Nat) : Nat :=
  let k := s.rd F.LDCc_TIMER_COUNT [c]
  k - (s.upNow3 - (s.luv c).timer3) * 204800 / 1000000

/-- TIMER: the count reaches 0 within the present block. -/
def State.luvTimerEnd (s : State) (c : Nat) : State :=
  let k := s.rd F.LDCc_TIMER_COUNT [c]
  if decide (c < s.coreCount) && k != 0 && s.elapsed (s.luv c).timer3 (k * 1000000 / 204800) then
    (s.wr F.LDCc_TIMER_COUNT 0 [c]).wr F.LDCc_IRQ_PEND_TIMER 1 [c]
  else s

/-! ## The block cycle (R284, R287 to R289) -/

/-- A core starts at BLOCK_VEC with the main set. -/
def State.luvStart (s : State) (c : Nat) : State :=
  let x := s.luv c
  (s.wr F.LDCc_STAT_STATE 1 [c]).setLuv c
    { x with inShadow := false, pc := BitVec.ofNat 14 (s.rd F.LDCc_VEC_BLOCK_VEC [c]), rep := 0, slots := 0, target := none
             stack := [], main := x.main.landAll, issued := 0, stalled := false, stalls := false, frames := [], rearm := false }

/-- S words BASE to END become 0 (R287). -/
def clearWords (m : Tab Nat) (base last : Nat) : Tab Nat := m.filter fun e => !(decide (base ≤ e.1) && decide (e.1 ≤ last))

/-- Where a core's fabric access goes: with legacy paths a core reaches DRAM only (R388). -/
def State.lsqTarget (s : State) (addr : Nat) : MemTarget :=
  match s.memTarget addr 4 with
  | .host h => if s.legacy then .fault .path else .host h
  | t => t

/-- The fabric answers a core's access with a bus error (R279). -/
def State.lsqError (s : State) (c addr : Nat) (write : Bool) (cause : BusCause) : State :=
  ((s.busError cause.code (16 + c) write 0 addr).raise F.LDCc_EVT_FABERR [c]).count F.LDCc_CNT_FABERR_V [c]

/-- A store of a core takes effect. -/
def State.lsqStore (s : State) (c addr v : Nat) : State :=
  match s.lsqTarget addr with
  | .dram off => s.dramWrite off (leBytes 4 v)
  | .host h => s.emit (.hostMemWrite h (leBytes 4 v))
  | .fault cause => s.lsqError c addr true cause

/-- The word that a load of a core returns. -/
def State.lsqLoad (s : State) (c addr : Nat) : State × Nat :=
  match s.lsqTarget addr with
  | .dram off => (s, ofLe (s.dramRead off 4))
  | .host h => (s, ofLe (s.hostBytes h 4))
  | .fault cause => (s.lsqError c addr false cause, 0)

/-- FABRIC_STORE_DONE: the fabric accepts the oldest entry, a store (R277). -/
def State.luvStoreDone (s : State) (c : Nat) : State :=
  let x := s.luv c
  match x.lsq with
  | { addr := a, store := some v, .. } :: rest =>
    if s.fab.drains.contains (16 + c) then s
    else (s.setLuv c { x with lsq := rest, stalled := false }).lsqStore c a v
  | _ => s

/-- The destination of a load takes the word, in the set that issued it. -/
def LuvCore.loaded (x : LuvCore) (e : LsqEntry) (v : Nat) : LuvCore :=
  let put (r : LuvSet) : LuvSet := r.setV e.dest (BitVec.ofNat 24 v)
  if e.shadow then { x with shadow := put x.shadow } else { x with main := put x.main }

/-- FABRIC_LOAD_RETURN: the data of the oldest entry, a load, returns (R277, R279). -/
def State.luvLoadReturn (s : State) (c : Nat) : State :=
  match (s.luv c).lsq with
  | e :: rest =>
    if e.store.isSome || s.fab.drains.contains (16 + c) then s
    else
      let (s, v) := s.lsqLoad c e.addr
      let x := s.luv c
      s.setLuv c ({ x with lsq := rest, stalled := false }.loaded e v)
  | [] => s

/-- The queued stores of an abandoned program complete (R287). -/
def State.luvStoresDone (s : State) (c : Nat) : State :=
  (s.luv c).lsq.foldl (fun s e => match e.store with | some v => s.lsqStore c e.addr v | none => s) s

/-- The abandoned program of an overrun core (R287), before its queued stores complete. -/
def LuvCore.abandon (x : LuvCore) (clear : Option (Nat × Nat)) : LuvCore :=
  { x with main := { x.main with late := [] }, shadow := { x.shadow with late := [] }, inShadow := false, rep := 0, slots := 0
           target := none, lsq := [], stalled := false, ramp := true, overran := true
           smem := match clear with | some (a, b) => clearWords x.smem a b | none => x.smem }

/-- The XOUT entries that name points: core, frame, kind, index. -/
def State.xouts (s : State) : List (Nat × Nat × Nat × Nat) :=
  ((List.range s.coreCount).map fun c => (List.range 256).filterMap fun f =>
    if s.on F.LDCc_XOUTf_EN [c, f] then some (c, f, s.rd F.LDCc_XOUTf_KIND [c, f], s.rd F.LDCc_XOUTf_INDEX [c, f]) else none).flatten

/-- The states of the filters of a core's points restart from zero: they lie in the S words that OVR_CLEAR clears (log entry 171). -/
def State.filtersRestart (s : State) (c : Nat) : State :=
  (s.xouts.filter fun e => e.1 == c).foldl (fun s e =>
    let n := e.2.2.2
    if e.2.2.1 == 0 then s.setInpChan n { s.inpChan n with bq := [] }
    else
      let x := s.outChan n
      s.setOutChan n { x with bq := [], a := 0, hist := if s.hasCnv then x.hist else [] }) s

/-- A core overruns. -/
def State.luvOverrun (s : State) (c : Nat) : State :=
  let clear := if s.on F.LDCc_CTRL_OVR_CLEAR [c] then some (s.rd F.LDCc_STATE_BASE [c], s.rd F.LDCc_STATE_END [c]) else none
  let s := s.wr F.LDCc_STALL_STALL (s.luvStalls c s.luvBudget) [c]
  let s := (s.luvStoresDone c).drain (16 + c)
  let s := s.setLuv c ((s.luv c).abandon clear)
  let s := if clear.any fun w => decide (w.1 ≤ w.2) then s.filtersRestart c else s
  let s := (s.count F.LDCc_CNT_OVERRUN_V [c]).raise F.LDCc_EVT_OVERRUN [c]
  let n := min 15 (s.rd F.LDCc_STAT_CONSEC [c] + 1)
  let s := (s.wr F.LDCc_STAT_CONSEC n [c]).wr F.LDCc_CYCLES_LAST 0xFFFFF [c]
  if n == s.rd F.LDCc_CTRL_WDOG_N [c] then s.wdog c else s

/-- The tick at one core, its frames passed on already. -/
def State.luvTick (s : State) (c : Nat) : State :=
  let run := s.on F.LDCc_CTRL_RUN [c]
  let x := s.luv c
  match s.luvState c with
  | 0 => if run then (s.setLuv c { x with overran := false }).luvStart c else s
  | 1 =>
    let s := s.luvOverrun c
    if run then s.luvStart c else s.wr F.LDCc_STAT_STATE 0 [c]
  | 2 =>
    let s := s.setLuv c { x with overran := false, inShadow := false, ramp := false }
    if run then s.luvStart c else s.wr F.LDCc_STAT_STATE 0 [c]
  | _ =>
    let s := s.setLuv c { x with overran := false }
    if run && x.rearm then s.luvStart c else s

/-- The cores at the tick. -/
def State.luvTicks (s : State) : State := (List.range s.coreCount).foldl State.luvTick s

/-! ## Frames that pass on (R285, R287) -/

/-- The frame that carries a point. -/
def xoutOf (l : List (Nat × Nat × Nat × Nat)) (kind n : Nat) : Option (Nat × Nat) :=
  (l.find? fun e => e.2.2.1 == kind && e.2.2.2 == n).map fun e => (e.1, e.2.1)

/-- What a frame of a core passes on: zeros while it stands or has overrun; else the words it stored, the reference
samples where it stored none (log entry 23), ramped after an overrun. -/
def State.framePassed (s : State) (c f : Nat) (reference : List Int) : List Int :=
  let x := s.luv c
  if s.luvState c != 2 then zeros32
  else
    (List.range 32).map fun j =>
      let v := match x.frames.lookup (32 * f + j) with
        | some w => toSigned 24 w
        | none => reference.getD j 0
      if x.ramp then roundDiv (v * ((j : Int) + 1)) 32 else v

/-- The points of one kind after the cores: `pre` passes unchanged where no frame names the point, else what the frame
carries; `ref` gives the reference samples of a core that has completed its block. -/
def State.passPoints (s : State) (kind : Nat) (xo : List (Nat × Nat × Nat × Nat)) (points : List Nat)
    (pre : State → Nat → List Int) (ref : State → Nat → State × List Int) : State × Tab (List Int) :=
  points.foldl (fun acc n =>
    match xoutOf xo kind n with
    | none => (acc.1, Tab.set zeros32 acc.2 n (pre acc.1 n))
    | some (c, f) =>
      let (t, ys) := if acc.1.luvState c == 2 then ref acc.1 n else (acc.1, [])
      (t, Tab.set zeros32 acc.2 n (t.framePassed c f ys))) (s, [])

/-- The words each core passes on, for the window that shows them. -/
def State.keepPassed (s : State) : State :=
  { s with core := s.core.map fun e =>
      (e.1, { e.2 with passed := if s.luvState e.1 == 2 then e.2.frames else [] }) }

/-- The points of a kind that frames name, beside some points. -/
def namedPoints (kind : Nat) (xo : List (Nat × Nat × Nat × Nat)) (l : List Nat) : List Nat :=
  l ++ ((xo.filter fun e => e.2.2.1 == kind && !l.contains e.2.2.2).map (·.2.2.2)).eraseDups

/-- All points after the cores: input channels and egress (R285). A standby forms the egress of its Damson outputs only (R352). -/
def State.passOn (s : State) (all : Bool) : State × Tab (List Int) × Tab (List Int) :=
  let xo := s.xouts
  let (s, inputs) := s.passPoints 0 xo (namedPoints 0 xo s.inpActive) (fun t n => Tab.get zeros32 t.pipe.inPre n) State.inputFilter
  let outs := s.pipe.outPre.map (·.1)
  let (s, egress) := s.passPoints 1 xo (if all then namedPoints 1 xo outs else outs)
    (fun t n => (Tab.get (zeros32, []) t.pipe.outPre n).1) State.outputBack
  (s.keepPassed, inputs, egress)

end Sys2Proof.Machine
end

