-- ==== Sys2Proof/Machine/Ring.lean ====
section
/-!
DEFINITION. The cascade ring (R310 to R338): the chain and its open link, the line trains with their sums and checks, ring
time, breaks and the wrap. Requests through the management tunnel are with the host fabric (Host.lean).
-/

namespace Sys2Proof.Machine

/-! ## The chain (R311 to R314, R328 to R332) -/

/-- This device's number, and the number of devices. -/
def State.dev (s : State) : Nat := s.rd F.CAS_CFG_DEV
def State.casSize (s : State) : Nat := s.rd F.CAS_CFG_SIZE_M1 + 1

/-- This device is the ring's head. -/
def State.isHead (s : State) : Bool := s.on F.CAS_CFG_EN && s.on F.CAS_CFG_HEAD

/-- The link at a device's upstream port (R311). -/
def State.upLink (s : State) : Nat := (s.dev + s.casSize - 1) % s.casSize

/-- No train crosses this link: it is the open link, or it is down and its wrap has taken effect. -/
def State.cutLink (s : State) (l : Nat) : Bool :=
  l == s.rd F.CAS_STAT_OPEN || (s.ring.down.contains l && !s.ring.wrapDue.any fun d => d.1 == l)

/-- The `d` links from link `l` on carry trains. -/
def State.linksClear (s : State) (l d : Nat) : Bool :=
  (List.range d).all fun i => !s.cutLink ((l + i) % s.casSize)

/-- The direction of the train that runs from this device toward another along the chain (`none`: it is this device, or
not on this chain). -/
def State.toward (s : State) (t : Nat) : Option Side :=
  let d := (t + s.casSize - s.dev) % s.casSize
  if d = 0 then none
  else if s.linksClear s.dev d then some .down
  else if s.linksClear t (s.casSize - d) then some .up
  else none

/-- The device starts the train of a direction (R314). -/
def State.isOrigin (s : State) : Side → Bool
  | .down => s.cutLink s.upLink
  | .up => s.cutLink s.dev

/-- The train of a direction ends at this device. -/
def State.isEnd (s : State) : Side → Bool
  | .down => s.cutLink s.dev
  | .up => s.cutLink s.upLink

/-- The ring is up: state RUN or WRAPPED. -/
def State.casRuns (s : State) : Bool :=
  s.on F.CAS_CFG_EN && (s.rd F.CAS_STAT_STATE == 3 || s.rd F.CAS_STAT_STATE == 4)

/-- A part with a ring in Safe Mute: its ring ports forward what they receive, as in bypass (R378). -/
def State.ringMute (s : State) : Bool := s.hasCas && s.rd F.SYS_BOOTSTAT_STATE == 2

/-- The device is aligned (R327). -/
def State.aligned (s : State) : Bool :=
  if s.isHead then s.rd F.CAS_STAT_STATE != 6
  else s.casRuns && s.rd F.CLK_STAT_SEL == 4 && s.rd F.CLK_STAT_STATE == 2
    && decide ((s.rdS F.CLK_PHASE_ERR).natAbs ≤ 1000) && !s.ring.posBad && !s.ring.cfgBad

/-! ## Lines (R315 to R318) -/

/-- The line frames of a train, in order (R319). -/
def State.lineFrames (s : State) : List (Nat × Nat) :=
  ((List.range 8).filter fun g => s.on F.CAS_GRPg_EN [g]).flatMap fun g =>
    (List.range (s.rd F.CAS_GRPg_LINES_M16 [g] + 1)).map fun f => (g, f)

/-- The bus that line `l` of a group is mapped to. -/
def State.lineBus (s : State) (g l : Nat) : Option Nat :=
  if s.on F.CAS_MAPg_l_EN [g, l] then some (s.rd F.CAS_MAPg_l_BUS [g, l]) else none

/-- The bus that a line was mapped to before the commit of this block. -/
def State.lineBusOld (s : State) (g l : Nat) : Option Nat := Tab.get (s.lineBus g l) s.ring.oldMap (512 * g + l)

/-- This device's bus sum for block `k`. -/
def State.ownSum (s : State) (k : Int) (bus : Nat) : List Int :=
  if k < 0 then zeros32 else Tab.get zeros32 (Tab.get [] s.ring.sums k.toNat) bus

/-- The part of the level that sample `j` of the present block carries, in 1/32 (R436). -/
def State.quietAt (s : State) (j : Nat) : Int :=
  match s.pwr.ramp with
  | 0 => 32 | 1 => 31 - j | 2 => 0 | _ => j + 1

/-- A word of a bus sum as a line carries it (R316). -/
def ringWord (num : Int) (den : Nat) : Int := clampInt (-2147483648) 2147483647 (roundDiv num den)

/-- The words this device contributes to a line in the present block, ramped where the entry changes (R316, R318). -/
def State.lineShare (s : State) (g l : Nat) : List Int :=
  let sum (b : Option Nat) : List Int := match b with
    | some n => s.ownSum ((s.time.block : Int) - 2) n
    | none => zeros32
  let new := sum (s.lineBus g l)
  let old := sum (s.lineBusOld g l)
  (List.range 32).map fun j =>
    let v := old.getD j 0 * (31 - j) + new.getD j 0 * (j + 1)
    ringWord (v * s.quietAt j) (32 * 32 * 2 ^ 24)

/-- This device adds to group `g` on the train of a direction (R315, R316, R327, R342). -/
def State.addsTo (s : State) (dir : Side) (g : Nat) : Bool :=
  s.casRuns && s.aligned && s.gate && s.audio && s.rd F.CAS_GRPg_SINK [g] != s.dev
    && s.toward (s.rd F.CAS_GRPg_SINK [g]) == some dir

/-- A frame names a line that this device contributes to. -/
def State.contributes (s : State) (g f : Nat) : Bool :=
  (List.range 16).any fun i =>
    (s.lineBus g (16 * f + i)).isSome || (s.lineBusOld g (16 * f + i)).isSome

/-- Adds this device's share to a frame's words, saturating, with the number of saturated words (R317). -/
def State.addShare (s : State) (g f : Nat) (words : List Int) : List Int × Nat :=
  let shares := (List.range 16).map fun i => s.lineShare g (16 * f + i)
  let sums := (List.range 512).map fun i => words.getD i 0 + ((shares.getD (i % 16) []).getD (i / 16) 0)
  let out := sums.map (clampInt (-2147483648) 2147483647)
  (out, ((sums.zip out).filter fun p => p.1 != p.2).length)

def zeros512 : List Int := List.replicate 512 0

/-- The block tag of this device: the block that the present trains carry. -/
def State.ringTag (s : State) : Nat := (((s.time.block : Int) - 2) % 65536).toNat

/-- A frame after this device's additions: a zeroed frame that it adds to takes its tag (R317, R324). -/
def State.addLines (s : State) (dir : Side) (f : LinesFrame) : State × LinesFrame :=
  if s.addsTo dir f.group && s.contributes f.group f.frame then
    let (w, n) := s.addShare f.group f.frame f.words
    let f := { f with words := w, block := if f.zeroed then s.ringTag else f.block }
    if n = 0 then (s, f) else ((s.count F.CAS_CNT_SAT_V [] n).raise F.CAS_EVT_SAT, f)
  else (s, f)

/-- The head inserts its time behind the lines of a train (R319, R321). -/
def State.insertTime (s : State) (dir : Side) : State :=
  if s.isHead then s.emit (.timeFrame dir (s.now3 / 3) s.time.block 0) else s

/-- An origin launches its train: in bypass every frame is zeroed under its own number (R319, R327). The head inserts its time in
a train it forwards behind the last line; where no group is enabled no line marks that place, and it inserts it at the launch
(DESIGN CHOICE, log entry 175). -/
def State.trainLaunch (s : State) (dir : Side) : State :=
  if !s.casRuns then s
  else if !s.isOrigin dir then (if s.lineFrames.isEmpty && !s.isEnd dir then s.insertTime dir else s)
  else
    let s := s.lineFrames.foldl (fun s p =>
      let z := !s.aligned
      let f : LinesFrame := { group := p.1, frame := p.2, zeroed := z, zhop := if z then s.dev else 0,
                              block := s.ringTag, crcGood := true, words := zeros512 }
      let (s, f) := s.addLines dir f
      s.emit (.linesFrame dir f)) s
    s.insertTime dir

/-- Sends a frame on; a hop that the test unit holds is counted (R322, R444). -/
def State.forward (s : State) (o : Output) : State :=
  (if s.rd F.TST_HOP_CYCLES = 0 then s else s.count F.TST_CNT_HOP_V).emit o

/-- Sends a line frame on, unless the chain ends here. -/
def State.forwardLines (s : State) (dir : Side) (f : LinesFrame) : State :=
  if s.isEnd dir then s else s.forward (.linesFrame dir f)

/-- How many line frames a train has brought in this block. -/
def State.framesSeen (s : State) : Side → Nat
  | .down => s.ring.seen.1
  | .up => s.ring.seen.2

def State.frameSeen (s : State) (dir : Side) : State :=
  match dir with
  | .down => { s with ring := { s.ring with seen := (s.ring.seen.1 + 1, s.ring.seen.2) } }
  | .up => { s with ring := { s.ring with seen := (s.ring.seen.1, s.ring.seen.2 + 1) } }

/-- The checks of R324: a frame that fails takes its place in the train with words of 0. -/
def State.checkLines (s : State) (place : Nat × Nat) (f : LinesFrame) : State × LinesFrame :=
  let bad := !f.crcGood || (f.group, f.frame) != place
  let tag := !f.zeroed && f.block != s.ringTag
  if bad || tag then
    let g := { f with group := place.1, frame := place.2, zeroed := true, zhop := s.dev, words := zeros512 }
    if bad then ((s.count F.CAS_CNT_LINE_ERR_V).raise F.CAS_EVT_LINE_ERR, g)
    else ((s.count F.CAS_CNT_TAG_ERR_V).raise F.CAS_EVT_TAG_ERR, g)
  else (s, f)

/-- The sink takes the words of its groups, and reports a frame that arrives zeroed (R317, R325, R326). -/
def State.sinkLines (s : State) (dir : Side) (arrivedZeroed : Bool) (f : LinesFrame) : State :=
  if s.rd F.CAS_GRPg_SINK [f.group] != s.dev || s.ring.closed.contains dir then s
  else
    let s := if arrivedZeroed then
        let s := (s.count F.CAS_CNT_ZEROED_RX_V).raise F.CAS_EVT_ZEROED_RX
        let s := (s.wr F.CAS_ERRLOG_GROUP f.group).wr F.CAS_ERRLOG_FRAME f.frame
        (s.wr F.CAS_ERRLOG_ZHOP f.zhop).wr F.CAS_ERRTIME_NS s.stamp
      else s
    { s with ring := { s.ring with rx := (dir, f.group, f.frame, f.words) :: s.ring.rx } }

/-- A line frame arrives on a train (R324, R325, R327). A unit whose gate is closed checks the frame and takes its lines, and
forwards what it received unchanged (R342); so does a part in Safe Mute, which checks nothing (R378). -/
def State.rxLines (s : State) (dir : Side) (f : LinesFrame) : State :=
  if s.ringMute then s.forward (.linesFrame dir f)
  else if !s.casRuns then s
  else
    let at' := s.framesSeen dir
    let s := s.frameSeen dir
    let s := if !s.aligned then s.forwardLines dir f
      else match s.lineFrames[at']? with
        | none => (s.count F.CAS_CNT_LINE_ERR_V).raise F.CAS_EVT_LINE_ERR
        | some place =>
          let (s, g) := s.checkLines place f
          let s := s.sinkLines dir (f.zeroed && g == f) g
          if s.gate then
            let (s, g) := s.addLines dir g
            s.forwardLines dir g
          else s.forwardLines dir f
    if at' + 1 = s.lineFrames.length && !s.isEnd dir then s.insertTime dir else s

/-- The deadline of a train: the frames of this sink's groups that have not come are missing (R326). -/
def State.lineDeadline (s : State) (dir : Side) : State :=
  if !s.casRuns || !s.aligned || s.isOrigin dir || s.ring.closed.contains dir then s
  else
    let mine := s.lineFrames.filter fun p => s.rd F.CAS_GRPg_SINK [p.1] == s.dev
    let missing := mine.filter fun p => !s.ring.rx.any fun x => x.1 == dir && x.2.1 == p.1 && x.2.2.1 == p.2
    let s := { s with ring := { s.ring with closed := dir :: s.ring.closed } }
    if missing.isEmpty then s
    else
      let s := (s.count F.CAS_CNT_LATE_V [] missing.length).raise F.CAS_EVT_LATE
      { s with ring := { s.ring with lost := true } }

/-! ## The sink and the sources of the output stage (R316, R317) -/

/-- The enabled map entries of the enabled groups: bus, group, line; by the entries of before the commit when `old`. -/
def State.lineMap (s : State) (old : Bool) : List (Nat × Nat × Nat) :=
  if !s.on F.CAS_CFG_EN then []
  else s.lineFrames.flatMap fun p => (List.range 16).filterMap fun i =>
    let l := 16 * p.2 + i
    (if old then s.lineBusOld p.1 l else s.lineBus p.1 l).map fun b => (b, p.1, l)

/-- The line words of both trains for a line of this sink, in 2^-47 (R317). -/
def State.trainWords (s : State) (g l : Nat) : List Int :=
  if !s.casRuns || !s.aligned || !s.gate then zeros32
  else s.ring.rx.foldl (fun acc x =>
    if x.2.1 == g && x.2.2.1 == l / 16 then
      addBlock acc ((List.range 32).map fun t => x.2.2.2.getD (16 * t + l % 16) 0 * 2 ^ 24)
    else acc) zeros32

/-- What step 1 receives of a bus under a map: its own sum; as a sink line its sum of a block earlier and the words of the
trains; as a contribution nothing (R316, R317). `n` is the block that begins. -/
def State.busUnder (s : State) (map : List (Nat × Nat × Nat)) (buses : Tab (List Int)) (n bus : Nat) : List Int :=
  match map.find? fun e => e.1 == bus with
  | none => Tab.get zeros32 buses bus
  | some (_, g, l) =>
    if s.rd F.CAS_GRPg_SINK [g] == s.dev then addBlock (s.ownSum ((n : Int) - 3) bus) (s.trainWords g l)
    else zeros32

/-- The buses as step 1 of block `n` receives them, ramping where a map entry changes (R316 to R318). -/
def State.ringBuses (s : State) (buses : Tab (List Int)) (n : Nat) : Tab (List Int) :=
  let old := s.lineMap true
  let new := s.lineMap false
  ((old ++ new).map (·.1)).foldl (fun t b =>
    let x := s.busUnder old buses n b
    let y := s.busUnder new buses n b
    Tab.put t b (some ((List.range 32).map fun j =>
      if x == y then y.getD j 0 else roundDiv (x.getD j 0 * (31 - j) + y.getD j 0 * (j + 1)) 32))) buses

/-- A commit has changed a map entry: it ramps in this block (R318). -/
def State.casApply (s0 : State) (hard : Bool) (s : State) (k : Nat) : State :=
  let old := s0.lineBus (k / 512) (k % 512)
  if hard || old == s.lineBus (k / 512) (k % 512) then s
  else { s with ring := { s.ring with oldMap := Tab.put s.ring.oldMap k (some old) } }

/-- The start of a block for the ring: the bus sums of the block before are kept, the trains of the block before are done,
and bypass is entered or counted (R326, R327). -/
def State.ringBlock (s : State) (sums : Tab (List Int)) (k : Int) : State :=
  let keep := s.ring.sums.filter fun e => decide (k ≤ e.1 + 2)
  let sums := if k < 0 then keep else Tab.put keep k.toNat (some sums)
  { s with ring := { s.ring with sums := sums } }

def State.ringBoundary (s : State) : State :=
  let s := if s.ring.lost then s.count F.CAS_CNT_BLK_LOST_V else s
  { s with ring := { s.ring with rx := [], seen := (0, 0), closed := [], lost := false, oldMap := [] } }

def State.bypassTick (s : State) : State :=
  if !s.on F.CAS_CFG_EN || s.aligned || s.isHead then s.wr F.CAS_STAT_BYPASS 0
  else
    let s := s.raiseIf (!s.on F.CAS_STAT_BYPASS) F.CAS_EVT_BYPASS
    (s.wr F.CAS_STAT_BYPASS 1).count F.CAS_CNT_BYPASS_V

/-! ## Starting, breaks and restoration (R312, R313, R328 to R332) -/

/-- The levels of the device's own links as they are known. -/
def State.ownLinks (s : State) : State :=
  let up l := if s.ring.down.contains l then 0 else 1
  (s.wr F.CAS_STAT_DN_LINK (up s.dev)).wr F.CAS_STAT_UP_LINK (up s.upLink)

/-- The head sends an ENUM frame in each direction (R312). -/
def State.sendEnum (s : State) : State :=
  let f : EnumFrame := { ownReturn := false, hops := 1, groups := (List.range 8).map fun g => (s.word R.CAS_GRPg [g]).toNat }
  (s.emit (.enumFrame .down f)).emit (.enumFrame .up f)

/-- Both links are up: a device in LINKING goes to ENUM, and the head sends its ENUM frames (R312, R314). -/
def State.ringStart (s : State) : State :=
  if !s.on F.CAS_CFG_EN || s.rd F.CAS_STAT_STATE != 1 || !s.on F.CAS_STAT_DN_LINK || !s.on F.CAS_STAT_UP_LINK then s
  else
    let s := (s.wr F.CAS_STAT_STATE 2).wr F.CAS_STAT_OPEN (s.rd F.CAS_CFG_SIZE_M1)
    if s.isHead then s.sendEnum else s

/-- The ring runs for this device: RUN, or WRAPPED while a link is down. -/
def State.ringRuns (s : State) : State :=
  s.wr F.CAS_STAT_STATE (if s.ring.down.isEmpty then 3 else 4)

/-- An ENUM frame arrives on a side (R312, R313, R332). -/
def State.rxEnum (s : State) (side : Side) (f : EnumFrame) : State :=
  let st := s.rd F.CAS_STAT_STATE
  let on := match side with | .up => Side.down | .down => Side.up
  let next := Output.enumFrame on { f with hops := f.hops + 1 }
  if s.ringMute then s.forward next
  else if !s.on F.CAS_CFG_EN || st == 0 || st == 6 then s
  else if s.isHead then
    if f.ownReturn then (if st == 2 then s.ringRuns else s)
    else
      let s := (s.raise F.CAS_EVT_HEAD_CONFLICT).wr F.CAS_STAT_STATE 6
      { s with ring := { s.ring with wrapDue := [] } }
  else
    let place := match side with
      | .up => f.hops % s.casSize
      | .down => (s.casSize - f.hops % s.casSize) % s.casSize
    let pos := place != s.dev
    let cfg := f.groups != (List.range 8).map fun g => (s.word R.CAS_GRPg [g]).toNat
    let s := s.raiseIf pos F.CAS_EVT_POS_MISMATCH
    let s := s.raiseIf cfg F.CAS_EVT_CFG_MISMATCH
    let s := { s with ring := { s.ring with posBad := pos, cfgBad := cfg } }
    let s := if st == 2 || st == 5 then s.ringRuns else s
    s.forward next

/-- The head's segment is in reach: device 0 along links that are not down (R331). -/
def State.reachesHead (s : State) (down : List Nat) : Bool :=
  let ok (l d : Nat) := (List.range d).all fun i => !down.contains ((l + i) % s.casSize)
  s.dev == 0 || ok s.dev (s.casSize - s.dev) || ok 0 s.dev

/-- The device is cut off from the head: it loses the ring reference and its tunnel (R331). -/
def State.isolate (s : State) : State :=
  let s := (s.wr F.CAS_STAT_STATE 5).raise F.CAS_EVT_ISOLATED
  let s := { s with time := { s.time with ringHeld := false },
                    ring := { s.ring with wrapDue := [], refOfs := none } }
  s.refLost 4

/-- What a newly broken link leads to: its neighbours send notices; a segment without the head is isolated; the open link stays
open; otherwise the wrap is due 100 µs later (R329 to R331). -/
def State.linkBroken (s : State) (l : Nat) : State :=
  let s := if l == s.dev || l == s.upLink then s.emit (.wrapNotice l) else s
  if !s.reachesHead s.ring.down then s.isolate
  else if l == s.rd F.CAS_STAT_OPEN then (s.wr F.CAS_STAT_STATE 4).raise F.CAS_EVT_WRAP
  else { s with ring := { s.ring with wrapDue := (l, s.upNow3 + 300000) :: s.ring.wrapDue } }

/-- A link of the ring goes down (R328 to R331). -/
def State.linkDownRing (s : State) (l : Nat) : State :=
  if !s.on F.CAS_CFG_EN || s.ring.down.contains l || decide (s.casSize ≤ l) then s
  else
    let s := ({ s with ring := { s.ring with down := l :: s.ring.down } } : State).ownLinks
    if s.casRuns then s.linkBroken l else s

/-- The wraps whose time has come take effect at a boundary at least 100 µs after their breaks; the newest broken link becomes the
open link (R329). -/
def State.wrapNow (s : State) : State :=
  match s.ring.wrapDue.filter fun d => decide (d.2 ≤ s.time.up3) with
  | (l, _) :: _ =>
    let s := (s.wr F.CAS_STAT_OPEN l).wr F.CAS_STAT_STATE 4
    let s := (s.raise F.CAS_EVT_WRAP).count F.CAS_CNT_WRAP_V
    { s with ring := { s.ring with wrapDue := s.ring.wrapDue.filter fun d => decide (s.time.up3 < d.2) } }
  | [] => s

/-- The open link after link `l` has come up: itself, but that a link still down takes its place, for no train crosses that
one (DESIGN CHOICE, log entry 176). -/
def State.openAfter (s : State) (l : Nat) : Nat :=
  let o := s.rd F.CAS_STAT_OPEN
  if o != l then o
  else ((s.ring.down.filter fun d => !s.ring.wrapDue.any fun w => w.1 == d).head?).getD o

/-- A link comes back up; no train moves, and the head sends its ENUM frames again, with which devices that were cut off rejoin
(R328, R332; DEDUCED, log entry 177). -/
def State.linkUpRing (s : State) (l : Nat) : State :=
  if !s.on F.CAS_CFG_EN || !s.ring.down.contains l then s
  else
    let due := s.ring.wrapDue.filter fun d => d.1 != l
    let s := ({ s with ring := { s.ring with down := s.ring.down.filter (· != l), wrapDue := due } } : State).ownLinks
    let st := s.rd F.CAS_STAT_STATE
    if st < 2 || st == 6 then s
    else
      let s := s.wr F.CAS_STAT_OPEN (s.openAfter l)
      let s := if st == 4 && s.ring.down.isEmpty then (s.wr F.CAS_STAT_STATE 3).raise F.CAS_EVT_RESTORE else s
      if s.isHead then s.sendEnum else s

/-! ## Ring time (R321, R333) -/

/-- The delay of the link a frame came in by, in 1/65536 ns. -/
def State.inDelay (s : State) : Side → Nat
  | .down => s.rd F.CAS_LINKDLY_UP_DELAY
  | .up => s.rd F.CAS_LINKDLY_DN_DELAY

/-- A TIME frame arrives: the member's ring reference takes its time, and the frame goes on with the link's delay and the
time it spent here added (R321, R333). -/
def State.rxTime (s : State) (dir : Side) (timeNs block : Nat) (corr : Int) (held arrival : Nat) : State :=
  let c := corr + s.inDelay dir
  if s.ringMute then s.forward (.timeFrame dir timeNs block (c + held * 65536))
  else if !s.casRuns then s
  else
    let s := if s.isHead then s
      else
        let ofs := ((timeNs : Int) - arrival) * 65536 + c
        ({ s with ring := { s.ring with refOfs := some ofs } } : State).refPhase 4 (roundDiv (ofs * 1000000) 65536)
    if s.isEnd dir then s
    else s.forward (.timeFrame dir timeNs block (c + held * 65536))

/-- A DELAY frame: half the round trip less the turnaround, averaged over 16 blocks (R333). -/
def State.rxDelay (s : State) (side : Side) (trip turn : Nat) : State :=
  let d := (trip - turn) / 2
  let avg (l : List Nat) := l.sum / l.length
  match side with
  | .down =>
    let l := (d :: s.ring.dnDelays).take 16
    ({ s with ring := { s.ring with dnDelays := l } } : State).wr F.CAS_LINKDLY_DN_DELAY (avg l)
  | .up =>
    let l := (d :: s.ring.upDelays).take 16
    ({ s with ring := { s.ring with upDelays := l } } : State).wr F.CAS_LINKDLY_UP_DELAY (avg l)

/-- A member first holds ring time: its counter starts from the head's block number and boot epoch; a member that has
counted before never reloads it (R30). Local time is not loaded, since nothing but acquisition writes it (R57): the member pulls
to the head's time (R37). A counter that starts with a boot epoch of PTP time 0 is gridded (DEDUCED from the field's words, log
entry 150). -/
def State.ringTime (s : State) (block epoch : Nat) : State :=
  if !s.on F.CAS_CFG_EN || s.isHead || !s.time.armed then s
  else if s.time.started then { s with time := { s.time with ringHeld := true } }
  else
    let s := if epoch == 0 then s.wr F.CLK_STAT_GRIDDED 1 else s
    { s with time := { s.time with started := true, ringHeld := true, block := block, epoch3 := 3 * epoch } }

end Sys2Proof.Machine
end

