-- ==== Sys2Proof/Machine/Pair.lean ====
section
/-!
DEFINITION. The redundant pair (R341 to R360): the claim interlock, the causes that give up control, the states of the
pair, the mirror, the Damson paths, and the hold and ramp of a switch-over.
-/

namespace Sys2Proof.Machine

/-! ## Causes and claims (R342 to R348) -/

/-- Pairing is enabled (R341). -/
def State.paired (s : State) : Bool := s.on F.RED_CFG_EN

/-- The unit's state: 0 OFF, 1 SYNCING, 2 STANDBY, 3 ACTIVE, 4 FAILED (R349). -/
def State.redState (s : State) : Nat := s.rd F.RED_STAT_STATE

/-- The hard causes of R345: every one but HO_OOS and YIELD. -/
def hardMask : Nat := 0x77

def State.hardCause (s : State) : Bool := s.rd F.RED_CAUSE_CAUSE &&& hardMask != 0

/-- PAIR_FAULT_OUT: while the audio does not run (a reset, Safe Mute), and on a paired unit while a hard cause is active
(R345, R348, R451). -/
def State.faultOut (s : State) : Bool := !s.running || (s.paired && s.hardCause)

/-- The unit drops its claim for some causes and goes to a state (R345). -/
def State.giveUpControl (s : State) (causes next : Nat) : State :=
  let s := (s.wr F.RED_STAT_CLAIM_OUT 0).wr F.RED_LASTCAUSE_CAUSE causes
  (s.raise F.RED_EVT_YIELDED).wr F.RED_STAT_STATE next

/-- The partner can take over on lost references: it reports its own holdover in specification and PAIR_FAULT_IN is
deasserted (R346). -/
def State.partnerHolds (s : State) : Bool :=
  !s.on F.RED_STAT_FAULT_IN && (match s.pair.partner with | some (_, _, ho) => ho | none => false)

/-- A resynchronisation begins. -/
def State.beginResync (s : State) : State :=
  let s := { s with pair := { s.pair with copied := false, known := [], unacked := [] } }
  (s.wr F.RED_STAT_STATE 1).wr F.RED_STAT_STALE 0

/-- The live causes follow their sources: HO_OOS, THERMAL, SUPPLY and RING; WDOG and the ECC causes last until the next
reset (R345, R346, R348; log entry 24). -/
def State.liveCauses (s : State) : Nat :=
  let stay := s.rd F.RED_CAUSE_CAUSE &&& 0x7
  let ring := s.rd F.CAS_STAT_STATE == 5 || s.rd F.CAS_STAT_STATE == 6
  stay + 8 * s.rd F.CLK_STAT_HO_OOS + 16 * s.rd F.SYS_THERM_THERMAL
    + (if s.rd F.SYS_SUPPLY_OUT == 0 then 0 else 32) + (if ring then 64 else 0)

/-- The judgement of the pair at the end of a command: causes, a failed unit without a hard cause resynchronises, an
active unit gives up control on a hard cause, or on lost references that its partner does not share; a unit in OFF whose audio has
started and that cannot claim resynchronises (R345, R346, R347, R349). -/
def State.pairJudge (s : State) : State :=
  let s := s.wr F.RED_CAUSE_CAUSE s.liveCauses
  if !s.paired then s
  else if s.redState == 0 then
    if s.audio && (s.hardCause || s.on F.RED_STAT_CLAIM_IN || decide (s.rd F.RED_CFG_PARTNER < s.dev)) then s.beginResync else s
  else if s.redState == 4 then (if s.hardCause then s else s.beginResync)
  else if s.redState == 3 then
    if s.hardCause || (s.on F.CLK_STAT_HO_OOS && s.partnerHolds) then s.giveUpControl (s.rd F.RED_CAUSE_CAUSE) 4 else s
  else s

/-- The end of every command: the pair is judged and the interrupts settle. -/
def State.finish (s : State) : Host.Outcome State Fault Refusal := .next s.pairJudge.settle

/-- ACT_CLAIM_IN changes (R342, R344). -/
def State.claimIn (s : State) (level : Bool) : State :=
  let fell := s.on F.RED_STAT_CLAIM_IN && !level
  let s := s.wr F.RED_STAT_CLAIM_IN (if level then 1 else 0)
  let s := if fell then { s with pair := { s.pair with since3 := s.upNow3 } } else s
  if s.paired && level && s.on F.RED_STAT_CLAIM_OUT && decide (s.rd F.RED_CFG_PARTNER < s.dev) then
    let s := ((s.wr F.RED_STAT_CLAIM_OUT 0).raise F.RED_EVT_CONTENTION).count F.RED_CNT_CONTENTION_V
    s.beginResync
  else s

/-! ## Damson paths and what a standby computes (R352, R354, R355, R358) -/

/-- The outputs of enabled Damson paths with their path numbers. -/
def State.damsonPaths (s : State) : List (Nat × Nat) :=
  ((List.range 64).filter fun p => s.on F.RED_DAMp_EN [p]).map fun p => (p, s.rd F.RED_DAMp_OUT [p])

def State.isDamson (s : State) (n : Nat) : Bool := s.damsonPaths.any fun e => e.2 == n

/-- The unit renders and drives its whole output: it is unpaired, or active (R352). -/
def State.rendersAll (s : State) : Bool := !s.paired || s.redState == 3

/-- Delay lines and filter histories restart empty, but for the outputs and inputs that `keep` names (R358, R438). -/
def State.emptyHistories (s : State) (keepOut keepIn : Nat → Bool) : State :=
  let out := s.out.map fun e =>
    if keepOut e.1 then e else (e.1, { e.2 with raw := [], hist := [], bq := [], a := 0 })
  let inp := s.inp.map fun e => if keepIn e.1 then e else (e.1, { e.2 with bq := [] })
  let lines := s.lines.map fun e =>
    if (e.2.kind == 2 && keepOut e.2.owner) || (e.2.kind == 0 && keepIn e.2.owner) then e
    else (e.1, { e.2 with total := 0, raw := [] })
  { s with out := out, inp := inp, lines := lines, pipe := { s.pipe with inPre := [], outPre := [] } }

/-- The check code of R355: the CRC-32 of R320 over the 32 egress samples, each as one word, low byte first
(log entry 25). -/
def damsonCrc (xs : List Int) : Nat :=
  let bytes := xs.flatMap fun x => leBytes 8 (ofSigned 64 x)
  let c := bytes.foldl (fun (c : Nat) (b : Byte) =>
    (List.range 8).foldl (fun c _ => if c % 2 = 1 then (c / 2) ^^^ 0xEDB88320 else c / 2) (c ^^^ b.toNat)) 0xFFFFFFFF
  c ^^^ 0xFFFFFFFF

/-- A bit of RED_DAMLOCK. -/
def State.damLocked (s : State) (p : Nat) : Bool :=
  let w := s.rd F.RED_DAMLOCK_HI_V * 2 ^ 32 + s.rd F.RED_DAMLOCK_LO_V
  w / 2 ^ p % 2 == 1

/-- The outputs of Damson paths in lockstep, and of those out of lockstep (R355). -/
def State.lockstepOuts (s : State) (locked : Bool) : List Nat :=
  (s.damsonPaths.filter fun e => s.damLocked e.1 == locked).map (·.2)

/-- The input channels that feed the buses of some outputs through direct crosspoints (R354). -/
def State.feeding (s : State) (outs : List Nat) : List Nat :=
  (s.xp.filter fun e => outs.contains e.2.route.bus && e.2.route.kind == 0).map fun e => e.2.route.src

def State.setDamLock (s : State) (p : Nat) (b : Bool) : State :=
  let w := s.rd F.RED_DAMLOCK_HI_V * 2 ^ 32 + s.rd F.RED_DAMLOCK_LO_V
  let v := w - w / 2 ^ p % 2 * 2 ^ p + (if b then 2 ^ p else 0)
  (s.wr F.RED_DAMLOCK_LO_V (v % 2 ^ 32)).wr F.RED_DAMLOCK_HI_V (v / 2 ^ 32)

/-- A path that is not enabled is not in lockstep (DEDUCED, log entry 181). -/
def State.unlockIdle (s : State) : State :=
  (List.range 64).foldl (fun s p => if s.damLocked p && !s.on F.RED_DAMp_EN [p] then s.setDamLock p false else s) s

/-- The codes of this unit's Damson outputs for a block are kept until the partner's come. -/
def State.keepDamson (s : State) (b : Nat) (egress : Tab (List Int)) : State :=
  if !s.paired then s
  else
    let s := s.unlockIdle
    let codes := s.damsonPaths.map fun e => (e.1, damsonCrc (Tab.get zeros32 egress e.2))
    let keep := s.pair.damson.filter fun e => decide (b ≤ e.1 + 8)
    { s with pair := { s.pair with damson := Tab.put keep b (some codes) } }

/-- The partner's codes of a block are compared with this unit's (R355). -/
def State.compareDamson (s : State) (b : Nat) (codes : List (Nat × Nat)) : State :=
  match s.pair.damson.lookup b with
  | none => s
  | some own =>
    codes.foldl (fun s e =>
      match own.lookup e.1 with
      | none => s
      | some c =>
        if c == e.2 then s.setDamLock e.1 true
        else ((s.raise F.RED_EVT_DAM_MISMATCH).count F.RED_CNT_DAM_MISMATCH_V).setDamLock e.1 false) s

/-! ## Claiming and the switch-over (R347, R351, R353, R356 to R359) -/

/-- The conditions of R347, whose guard of 10 µs must have passed. -/
def State.mayClaim (s : State) : Bool :=
  s.paired && s.audio && !s.on F.RED_STAT_CLAIM_OUT && !s.on F.RED_STAT_CLAIM_IN && s.elapsed s.pair.since3 30000
    && !s.hardCause
    && (s.redState == 2 || (s.redState == 1 && s.pair.copied)
      || (s.redState == 0 && decide (s.dev < s.rd F.RED_CFG_PARTNER)))

/-- The unit holds a commit record. -/
def State.holdsCommit (s : State) (c : CommitRecord) : Bool := s.commits.any fun d => d.block == some c.1 && d.writes == c.2

/-- The unit claims; a unit that was not in OFF switches over: held outputs, empty histories but for the Damson paths in
lockstep, and each commit it was told of but does not hold is lost. -/
def State.claimNow (s : State) : State :=
  if !s.mayClaim then s
  else
    let fromOff := s.redState == 0
    let s := (s.wr F.RED_STAT_CLAIM_OUT 1).wr F.RED_STAT_STATE 3
    let s := (s.raise F.RED_EVT_CLAIMED).count F.RED_CNT_SWITCH_V
    let s := (s.wr F.RED_SWBLOCK_LO_V (s.time.block % 2 ^ 32)).wr F.RED_SWBLOCK_HI_V (s.time.block / 2 ^ 32)
    let s := if s.on F.RED_CFG_VIP_EN then
        (List.range 2).foldl (fun (s : State) p =>
          let x := s.netPort p
          s.setNetPort p { x with vip := 3, vip3 := none }) s
      else s
    if fromOff then s
    else
      let lost := s.pair.acked.filter fun c => decide (s.time.block < c.1) && !s.holdsCommit c
      let s := if lost.isEmpty then s else (s.raise F.RED_EVT_TXN_LOST).count F.RED_CNT_TXN_LOST_V [] lost.length
      let live := s.lockstepOuts true
      let inputs := s.feeding live
      let s := s.emptyHistories (fun n => live.contains n) (fun n => inputs.contains n)
      { s with pair := { s.pair with hold := some (s.time.block, live), acked := [], unacked := [] } }

/-- Egress of block `b` after a switch-over in block `k`: a mirrored output holds its last mirrored sample until block
k + 3 starts and then ramps to live output over 192 samples (R356, R357). -/
def State.switchSample (s : State) (k b n j : Nat) (y : Int) : Int :=
  let h := Tab.get 0 s.pair.egress n
  if b < k + 3 then h
  else
    let i := 32 * (b - (k + 3)) + j + 1
    if 192 ≤ i then y
    else h + roundDiv ((y - h) * (2 ^ 80 - cosOf i 384)) (2 ^ 81)

/-- The outputs that mirrored samples exist for and those with live output, as the switch-over leaves them. -/
def State.pairEgress (s : State) (b : Nat) (egress : Tab (List Int)) : State × Tab (List Int) :=
  match s.pair.hold with
  | none => (s, egress)
  | some (k, live) =>
    let outs := (egress.map (·.1)) ++ (s.pair.egress.map (·.1))
    let t := outs.foldl (fun t n =>
      if live.contains n then t
      else Tab.set zeros32 t n
        ((List.range 32).map fun j => s.switchSample k b n j ((Tab.get zeros32 egress n).getD j 0))) egress
    (if k + 9 ≤ b then { s with pair := { s.pair with hold := none } } else s, t)

/-! ## The mirror (R349 to R351, R360) -/

/-- Lists the instances of `l`, replacing those already listed. -/
def Tab.merge {α : Type} (t : Tab α) (l : List (Nat × α)) : Tab α := l.foldl (fun t e => Tab.put t e.1 (some e.2)) t

/-- The words that a mirror carries beside objects, sessions and contexts: owners, policies and home positions. A
standby runs its own PTP engines, so their mirrored states change nothing here (log entry 26). -/
def mirrorRegs : List Reg := [R.OSP_OBJn, R.OSP_HOMEn_X, R.OSP_HOMEn_Y, R.OSP_HOMEn_Z]

/-- The image digest of the booted image (R366). -/
def State.imageDigest (s : State) : List Byte := (List.range 8).flatMap fun i => leBytes 4 (s.rd F.BOOT_DIGESTi_V [i])

/-- The commit records that an active announces: those pending, and those it applied before the standby acknowledged them, from
which the standby sees what it missed (R351, log entry 178). -/
def State.announced (s : State) : List CommitRecord :=
  (s.commits.filterMap fun c => c.block.map fun b => (b, c.writes)) ++ s.pair.unacked

/-- What this unit reports across the partner link: the active its committed changes, objects, sessions, contexts and last
egress samples; the standby its state, holdover status and the commits it was told of; both their check codes (R350, R355). -/
def State.mirrorFrame (s : State) : MirrorFrame :=
  let active := s.redState == 3
  let codes := s.pair.damson.getLast?.getD (0, [])
  let copied := s.lockstepOuts false
  let inputs := s.feeding copied
  { fromActive := active, partnerState := s.redState, partnerStale := s.on F.RED_STAT_STALE,
    partnerHoldoverInSpec := !s.on F.CLK_STAT_HO_OOS,
    commits := if active then s.announced else [],
    objects := if active then s.scene.objs else [],
    sessions := if active then (List.range 8).map fun n => (n, s.osp.ses.lookup n) else [],
    store := if active then s.scene.store.filter fun h => decide (h.src < 8) else [],
    batches := if active then s.scene.batches.filter fun e => decide (e.1 < 8) else [],
    up3 := s.time.up3,
    contexts := if active then s.str.rx.filterMap fun e => e.2.head?.map fun i => (e.1, i.expected.getD 0, i.st) else [],
    words := if active then s.regs.filterMap fun e =>
        if mirrorRegs.any fun r => (r.copyAt e.1).isSome then some (e.1, e.2.toNat) else none
      else [],
    acked := if active then s.announced else s.pair.known, digest := s.imageDigest, damsonBlock := codes.1, damson := codes.2,
    egress := if active then s.pipe.egress.filterMap fun e => e.2.getLast?.map fun v => (e.1, v) else [],
    persisted := if active then s.boot.waiting.map (·.recs) else [],
    keys := if active then [2, 3, 4, 5].map fun k => (k, Tab.get [] s.keys k) else [],
    power := match s.pwr.goal, s.pwr.at' with | some g, some b => if active then some (g, b) else none | _, _ => none,
    outs := if active then s.out.filter fun e => copied.contains e.1 else [],
    inps := if active then s.inp.filter fun e => inputs.contains e.1 else [],
    lines := if active then s.lines.filter fun e =>
        (e.2.kind == 2 && copied.contains e.2.owner) || (e.2.kind == 0 && inputs.contains e.2.owner)
      else [] }

/-- The partner link runs in this direction from the unit. -/
def State.partnerSide (s : State) (dir : Side) : Bool :=
  match dir with
  | .down => s.rd F.RED_CFG_PARTNER == (s.dev + 1) % s.casSize
  | .up => s.rd F.RED_CFG_PARTNER == s.upLink

/-- The mirror part of a train: changes beyond its share go in later trains, which is counted (R319, R350). A unit of a pair reports
in every state but OFF, while the partner link is up and the ring is not in FAULT (DEDUCED, log entry 179). -/
def State.mirrorLaunch (s : State) (dir : Side) (words : Nat) : State :=
  let link := match dir with | .down => s.dev | .up => s.upLink
  if !s.paired || !s.partnerSide dir || s.redState == 0 || s.rd F.CAS_STAT_STATE == 6 || s.ring.down.contains link then s
  else
    let s := if 24576 < words then (s.count F.RED_CNT_MIRROR_LAG_V).raise F.RED_EVT_MIRROR_LAG else s
    s.emit (.mirror s.mirrorFrame)

/-- A time of the other unit, which counted `theirs` when this unit counts `ours`. -/
def movedTime (theirs ours t : Nat) : Nat := t + ours - theirs

/-- A session in the times of this unit. -/
def OspSession.moved (x : OspSession) (f : Nat → Nat) : OspSession :=
  { x with tokens3 := f x.tokens3, gap := x.gap.map fun g => (g.1, f g.2), nak3 := f x.nak3, rx3 := f x.rx3, tx3 := f x.tx3 }

/-- Sessions with their pending records and open batches replace those of this unit (R135). -/
def State.takeSessions (s : State) (f : MirrorFrame) : State :=
  let at' := movedTime f.up3 s.time.up3
  let s := f.sessions.foldl (fun s e => s.setSession e.1 (e.2.map fun x => x.moved at')) s
  let c := s.scene
  { s with scene := { c with
    store := c.store.filter (fun h => decide (8 ≤ h.src)) ++ f.store
    batches := (c.batches.filter fun e => decide (8 ≤ e.1)) |> fun own =>
      Tab.merge own (f.batches.map fun e => (e.1, { e.2 with opened3 := at' e.2.opened3 }))
    order := (f.store.map fun h => h.order + 1).foldl max c.order } }

/-- Takes the expected sequence number and state of a receive context. -/
def State.mirrorContext (s : State) (n expected st : Nat) : State :=
  match s.rxIds n with
  | i :: rest => s.setRxIds n ({ i with expected := some expected, st := st } :: rest)
  | [] => s

/-- The active's mirror at a unit that holds it: everything it carries is taken over; a commit that comes after its block
began costs the standby its state (R350, R351, R355). -/
def State.takeMirror (s : State) (f : MirrorFrame) : State :=
  let s := f.objects.foldl (fun s e => s.setObj e.1 e.2) s
  let s := s.takeSessions f
  let s := f.contexts.foldl (fun s e => s.mirrorContext e.1 e.2.1 e.2.2) s
  let s := f.words.foldl (fun s e =>
    match mirrorRegs.findSome? fun r => (r.copyAt e.1).map fun i => (r, i) with
    | some (r, i) => s.setWord r (BitVec.ofNat 32 e.2) [i]
    | none => s) s
  let new := f.commits.filter fun c => decide (s.time.block < c.1) && !s.holdsCommit c
  let add := new.map fun c => ({ slot := none, access := { iface := .pcie, slot := 0 }, writes := c.2,
                                 block := some c.1 } : Commit)
  let s := { s with commits := s.commits ++ add, out := Tab.merge s.out f.outs, inp := Tab.merge s.inp f.inps,
                    lines := Tab.merge s.lines f.lines,
                    pair := { s.pair with
                      egress := Tab.merge s.pair.egress f.egress, acked := f.acked, heard := s.time.block
                      known := s.pair.known ++ f.commits.filter fun c => !s.pair.known.contains c } }
  let s := f.keys.foldl (fun (s : State) e => { s with keys := Tab.set [] s.keys e.1 e.2 }) s
  let s := match f.power with
    | some (g, b) =>
      if s.on F.SYS_STAT_BUSY || s.rd F.SYS_STAT_PWR == g || decide (b ≤ s.time.block) then s
      else ({ s with pwr := { s.pwr with goal := some g, at' := some b } } : State).wr F.SYS_STAT_BUSY 1
    | none => s
  let groups := if f.digest != s.imageDigest then []
    else f.persisted.map fun l => ({ digest := f.digest.take 8, recs := l } : JournalGroup)
  { s with boot := { s.boot with waiting := (s.boot.waiting ++ groups.filter fun g => !s.boot.waiting.contains g).take 4 } }

/-- A mirror frame arrives over the partner link. -/
def State.rxMirror (s : State) (f : MirrorFrame) : State :=
  if !s.paired then s
  else
    let late := f.commits.any fun c => decide (c.1 ≤ s.time.block) && !s.pair.known.contains c
    let s := { s with pair := { s.pair with
      partner := some (f.partnerState, f.partnerStale, f.partnerHoldoverInSpec) } }
    let s := s.compareDamson f.damsonBlock f.damson
    if f.fromActive && s.redState != 3 then
      let stale := s.on F.RED_STAT_STALE
      let s := s.takeMirror f
      if s.redState == 2 && (stale || late) then s.beginResync else s
    else if s.redState == 3 then
      { s with pair := { s.pair with acked := f.acked, unacked := s.pair.unacked.filter fun c => !f.acked.contains c } }
    else s

/-- A standby that hears no mirror frame for 3 blocks is stale (R349). -/
def State.partnerLost (s : State) : State :=
  if s.paired && s.redState == 2 && !s.on F.RED_STAT_STALE && decide (s.pair.heard + 3 ≤ s.time.block) then
    (s.wr F.RED_STAT_STALE 1).raise F.RED_EVT_PARTNER_LOST
  else s

/-- PAIR_FAULT_IN rises (R348); an unpaired unit ignores it (R451). -/
def State.partnerFault (s : State) : State :=
  if s.on F.RED_STAT_FAULT_IN then s
  else
    let s := s.wr F.RED_STAT_FAULT_IN 1
    if !s.paired then s
    else
      let s := s.raise F.RED_EVT_PARTNER_FAULT
      if s.redState == 2 then (s.wr F.RED_STAT_STALE 1).raise F.RED_EVT_PARTNER_LOST else s

/-- A yield takes effect only while the partner is a fresh standby without a fault (R345, R346). -/
def State.yieldNow (s : State) : State :=
  let ready := match s.pair.partner with | some (st, stale, _) => st == 2 && !stale | none => false
  if s.paired && s.redState == 3 && ready && !s.on F.RED_STAT_FAULT_IN then
    s.giveUpControl (s.rd F.RED_CAUSE_CAUSE ||| 0x80) 4
  else s.count F.RED_CNT_YIELD_REFUSED_V

/-- RED_CTRL.RESYNC on a standby (R349). -/
def State.resyncNow (s : State) : State := if s.paired && s.redState == 2 then s.beginResync else s

/-- The first full mirror is acknowledged: SYNCED, STANDBY (R360). -/
def State.syncedNow (s : State) : State :=
  if s.paired && s.redState == 1 && s.pair.copied then
    let s := (s.raise F.RED_EVT_SYNCED).wr F.RED_STAT_STATE 2
    { s with pair := { s.pair with heard := s.time.block } }
  else s

end Sys2Proof.Machine
end

