-- ==== Sys2Proof/Machine/Live.lean ====
section
/-!
DEFINITION. Finding the register at an address, whether it is present (R1, R20), and what a read of it returns: the stored
word, or the live state that its chapter names.
-/

namespace Sys2Proof.Machine

/-! ## Finding a register (R1, R20, R387, R392) -/

/-- The indices that an offset from a register's base stands for. -/
def splitIndex : List (Nat × Nat) → Nat → Option (List Nat)
  | [], off => if off = 0 then some [] else none
  | (n, d) :: ds, off => if off / d < n then (splitIndex ds (off % d)).map (off / d :: ·) else none

/-- The indices of the copy of an entry at an address, for an access through a slot. -/
def RegEntry.indexOf (e : RegEntry) (addr slot : Nat) : Option (List Nat) :=
  if addr < e.reg.base then none
  else if e.attrs.contains .slot then (splitIndex e.reg.dims.dropLast (addr - e.reg.base)).map (· ++ [slot])
  else splitIndex e.reg.dims (addr - e.reg.base)

/-- The register at an address. -/
def findReg (addr slot : Nat) : Option (RegEntry × List Nat) :=
  regTable.findSome? fun e => (e.indexOf addr slot).map fun ix => (e, ix)

/-- An address lies in a window of `size` bytes. -/
def within (base size addr : Nat) : Bool := decide (base ≤ addr) && decide (addr < base + size)

/-- The unit that an address belongs to exists on this part (R1, R310, R341, R262). -/
def State.unitPresent (s : State) (addr : Nat) : Bool :=
  if within 0xA00000 0x600000 addr || within 0x1000000 0x1800000 addr then s.hasCnv
  else if within 0x3800000 0x40000 addr then s.hasCas
  else if within 0x3840000 0x40000 addr then s.hasRed
  else if within 0x2800000 0x1000000 addr then decide ((addr - 0x2800000) / 0x80000 < s.coreCount)
  else true

/-- A copy of a register exists on this part (R20). -/
def State.present (s : State) (e : RegEntry) (ix : List Nat) : Bool :=
  let n := ix.headD 0
  s.unitPresent e.reg.base
    && (!e.attrs.contains .out || decide (n < s.outCount))
    && (!e.attrs.contains .obj || decide (n < s.objCount))
    && (!e.attrs.contains .core || decide (n < s.coreCount))
    && (!e.attrs.contains .xpr || decide (n / 32 < s.objCount))
    && (!e.attrs.contains .fir || !s.hasCnv)

/-! ## Live words -/

/-- A word with fields replaced. -/
def fieldsInto (w : Nat) (l : List (Field × Nat)) : Nat :=
  (l.foldl (fun w p => p.1.into w p.2) (BitVec.ofNat 32 w)).toNat

/-- A mask of the numbers below `n` that `p` holds of. -/
def bitsWhere (n : Nat) (p : Nat → Bool) : Nat := ((List.range n).map fun i => if p i then 2 ^ i else 0).sum

def boolNat (b : Bool) : Nat := if b then 1 else 0

/-- Live words of the SYS, CLK, SEC, TXN and IRQ units. -/
def State.liveSys (s : State) (a : Access) (r : Reg) (n w : Nat) : Nat :=
  if r == R.SYS_ID then partId s.part
  else if r == R.SYS_CAPS then partCaps s.part
  else if r == R.SYS_GPIO_IN then
    let oe := (s.word R.SYS_GPIO_OE).toNat
    let out := (s.word R.SYS_GPIO_OUT).toNat
    (out &&& oe) + (s.draw .readValue [3] % 65536 &&& (65535 - oe))
  else if r == R.CLK_HO_REMAIN then s.hoRemain
  else if r == R.CLK_FREQ then ofSigned 32 s.freqReg
  else if r == R.CLK_BLOCK_LO then s.time.block % 2 ^ 32
  else if r == R.CLK_EPOCH_NS then s.time.epoch3 / 3 % 10 ^ 9
  else if r == R.CLK_REFn_STAT then fieldsInto w [(F.CLK_REFn_STAT_WTR_LEFT, s.wtrLeft n)]
  else if r == R.SEC_STAT then
    let key (role : Nat) := bitsWhere 2 fun k => !(Tab.get [] s.keys (2 * role + k)).isEmpty
    fieldsInto 0 [(F.SEC_STAT_LC, s.lifecycle), (F.SEC_STAT_UNLOCKS, s.sec.unlocks),
      (F.SEC_STAT_SESSIONS, bitsWhere 8 fun i => s.rd F.SEC_OPEN_STAT_STATE [i] == 2),
      (F.SEC_STAT_INST, key 2), (F.SEC_STAT_OPER, key 1)]
  else if r == R.SEC_OPEN_HANDLE || r == R.SEC_OPEN_DNONCEi || r == R.SEC_OPEN_PROOFi then
    (if s.on F.SEC_OPEN_STAT_PEND [a.slot] then 0 else w)
  else if r == R.SEC_PROV_REVOKE then s.sec.revoked
  else if r == R.TXN_STAT then
    fieldsInto w [(F.TXN_STAT_ENTRIES, (Tab.get TxnSlot.init s.txn a.slot).staged.length)]
  else if r == R.TXN_GSTAT then
    let one := (s.commits.filter fun c => c.one).length
    fieldsInto w [(F.TXN_GSTAT_JOURNAL, (s.txn.map fun e => e.2.staged.length).sum + one)]
  else if r == R.IRQ_STAT then s.irqStat
  else w

/-- Live words of the log's entries, the network ports and the PTP engines. -/
def State.liveNet (s : State) (r : Reg) (ix : List Nat) (w : Nat) : Nat :=
  let p := ix.headD 0
  if r == R.LOG_ENTRYe_w then (Tab.get [] s.log.entries p).getD (ix.getD 1 0) 0 else
  let x := s.ptpPort p
  if r == R.NP_CNTi_LO then Tab.get 0 (s.netPort p).cnt (ix.getD 1 0) % 2 ^ 32
  else if r == R.PTP_STAT then fieldsInto w [(F.PTP_STAT_TIME_SET, boolNat s.time.timeSet)]
  else if r == R.PTP_TXTS_HEAD then
    fieldsInto 0 [(F.PTP_TXTS_HEAD_VALID, boolNat !x.txts.isEmpty), (F.PTP_TXTS_HEAD_LEVEL, x.txts.length),
      (F.PTP_TXTS_HEAD_ID, (x.txts.headD (0, 0)).1)]
  else if r == R.PTP_TXTS_NS then (x.txts.headD (0, 0)).2 % 2 ^ 32
  else if r == R.PTP_TIME_NS then s.now3 / 3 % 10 ^ 9
  else if r == R.PTP_ACQ_LO then ofSigned 64 s.time.acq % 2 ^ 32
  else if r == R.PTP_ACQ_HI then ofSigned 64 s.time.acq / 2 ^ 32
  else w

/-- Live words of the streams, OSP, serial ports, queues, metadata port and rate unification. -/
def State.liveAudio (s : State) (r : Reg) (n i w : Nat) : Nat :=
  if r == R.STR_STAT then
    let rx := s.str.rx.map fun e => match e.2 with | x :: _ => if x.dying then 0 else x.routes.length | [] => 0
    let tx := s.str.tx.map fun e => (e.2.map fun x => x.cfg.ch).sum
    fieldsInto 0 [(F.STR_STAT_TX_CH, tx.sum), (F.STR_STAT_RX_CH, rx.sum)]
  else if r == R.STR_RXPENDk then bitsWhere 32 fun j => s.rd F.RXn_STAT_STICKY [32 * n + j] != 0
  else if r == R.STR_TXPENDk then
    bitsWhere 32 fun j => s.on F.TXn_STAT_STICKY_DOWN [32 * n + j] || s.on F.TXn_STAT_STICKY_LATE [32 * n + j]
  else if r == R.STR_GRPg then
    let ctx := s.str.rx.filter fun e => match e.2 with | x :: _ => !x.dying && x.cfg.grp == some n | [] => false
    let ser := (List.range 32).filter fun p => s.on F.SAPp_CFG_EN [p] && !s.sapSends p && (s.sapReader p).cfg.grp == some n
    fieldsInto w [(F.STR_GRPg_MEMBERS, ctx.length + ser.length), (F.STR_GRPg_DELAY, s.groupDelayOf n)]
  else if r == R.RXn_STAT then
    let l := s.rxIds n
    let st := match l with | x :: _ => x.st | [] => 0
    fieldsInto w [(F.RXn_STAT_FADING, boolNat (l.any fun x => !x.shadow && (x.dying || x.fade.rest != 0))), (F.RXn_STAT_STATE, st)]
  else if r == R.TXn_STAT then
    let l := s.txIds n
    fieldsInto w [(F.TXn_STAT_ACTIVE, boolNat (l.any fun x => !x.dying)),
      (F.TXn_STAT_FADING, boolNat (l.any fun x => x.dying || x.fade.rest != 0))]
  else if r == R.OSP_STAT then
    fieldsInto w [(F.OSP_STAT_SESSIONS, s.osp.ses.length), (F.OSP_STAT_PEND, s.storeAll)]
  else if r == R.OSP_BACKLOG then s.backlog
  else if r == R.OSP_SESn_STAT then
    match s.session n with
    | none => 0
    | some x => fieldsInto 0 [(F.OSP_SESn_STAT_OBJECTS, (s.owned n).length), (F.OSP_SESn_STAT_PORT, x.src.port),
        (F.OSP_SESn_STAT_ROLE, x.role), (F.OSP_SESn_STAT_STATE, s.sessionState n)]
  else if r == R.OSP_SESn_ADDR then (match s.session n with | some x => x.src.addr | none => 0)
  else if r == R.OSP_SESn_PORTS then (match s.session n with | some x => x.kaMs * 65536 + x.src.udp | none => 0)
  else if r == R.OSP_SESn_EXPECT then (match s.session n with | some x => x.e | none => 0)
  else if r == R.OSP_SESn_PEND then s.storeOf n
  else if r == R.SAP_STAT then bitsWhere 32 fun p => s.on F.SAPp_STAT_RUN [p]
  else if r == R.SAP_PEND then bitsWhere 32 fun p => (s.word R.SAPp_EVT [p]) != 0
  else if r == R.BRM_STAT then s.shared
  else if r == R.BRM_PENDk then bitsWhere 32 fun j => (s.word R.BRMq_EVT [32 * n + j]) != 0
  else if r == R.BRMq_STAT then
    let x := s.queue n
    fieldsInto 0 [(F.BRMq_STAT_RESETTING, boolNat x.resetting), (F.BRMq_STAT_SIDE, boolNat x.side),
      (F.BRMq_STAT_FULL, boolNat (s.queueFull n)), (F.BRMq_STAT_EMPTY, boolNat x.words.isEmpty),
      (F.BRMq_STAT_LEVEL, x.words.length)]
  else if r == R.BRMq_RDTAG then ((s.queue n).words.headD (s.queue n).last).1
  else if r == R.BRMq_HEADi then ((s.queue n).words.headD (s.queue n).last).2 / 2 ^ (32 * i) % 2 ^ 32
  else if r == R.MDI_STAT then
    fieldsInto 0 [(F.MDI_STAT_OBJECTS, (s.owned 9).length), (F.MDI_STAT_CLK_ACTIVE, s.draw .readValue [4] % 2)]
  else if r == R.SRC_STAT then s.conv.length
  else if r == R.SRC_CHc_STAT then
    match s.conv.lookup n with
    | none => 0
    | some c => fieldsInto 0 [(F.SRC_CHc_STAT_STATE, if c.track then 2 else 1), (F.SRC_CHc_STAT_KIND, boolNat c.port),
        (F.SRC_CHc_STAT_ERR, ofSigned 8 (clampInt (-128) 127 c.err)), (F.SRC_CHc_STAT_DESIGN, c.design),
        (F.SRC_CHc_STAT_SOURCE, c.source)]
  else if r == R.INP_STAT then s.lines.length
  else w

/-- QNC_OBJn_DIST: the distance in mm; what the 23 bits hold of a longer one is open (log entry 168). -/
def State.distanceWord (s : State) (n : Nat) : Nat :=
  let d := (roundDiv (s.objAed n).2.2 (2 ^ 40)).toNat
  if d < 2 ^ 23 then d else s.draw .readValue [5, (n : Int)] % 2 ^ 23

/-- Live words of the renderer, the mix fabric, the output stage and the convolution engine. -/
def State.liveMix (s : State) (r : Reg) (n w : Nat) : Nat :=
  let o := s.obj n
  let rend := s.objRender n
  if r == R.QNC_STAT then
    fieldsInto w [(F.QNC_STAT_OBJECTS, ((List.range s.objCount).filter fun k => s.on F.QNC_OBJn_CFG_EN [k]).length)]
  else if r == R.QNC_OBJn_X then ofSigned 24 (roundDiv (s.objXyz n).1 65536)
  else if r == R.QNC_OBJn_Y then ofSigned 24 (roundDiv (s.objXyz n).2.1 65536)
  else if r == R.QNC_OBJn_Z then ofSigned 24 (roundDiv (s.objXyz n).2.2 65536)
  else if r == R.QNC_OBJn_DIR then
    fieldsInto 0 [(F.QNC_OBJn_DIR_AZ, ofSigned 16 (roundDiv (s.objAed n).1 65536)),
      (F.QNC_OBJn_DIR_EL, ofSigned 16 (roundDiv (s.objAed n).2.1 65536))]
  else if r == R.QNC_OBJn_DIST then s.distanceWord n
  else if r == R.QNC_OBJn_GAIN then o.gainCode
  else if r == R.QNC_OBJn_WIDTH then
    fieldsInto 0 [(F.QNC_OBJn_WIDTH_SIZE, (roundDiv o.size.cur 65536).toNat), (F.QNC_OBJn_WIDTH_W, rend.width)]
  else if r == R.QNC_OBJn_DELAY then rend.held.getD (rend.d1.getD 0)
  else if r == R.QNC_OBJn_STAT then
    fieldsInto w [(F.QNC_OBJn_STAT_GLIDING, boolNat o.gliding), (F.QNC_OBJn_STAT_NSPK, rend.nspk)]
  else if r == R.MIX_STAT then (s.xp.filter fun e => e.2.fading).length
  else if r == R.MIX_ACTIVE then (s.xp.filter fun e => s.on F.XPDx_W0_EN [e.1]).length
  else if r == R.XPRx_W0 then
    match (s.objRender (n / 32)).slots.find? fun e => e.slot == n % 32 && !e.leaving with
    | some e => fieldsInto 0 [(F.XPRx_W0_ACTIVE, 1), (F.XPRx_W0_X, e.x1.toNat)]
    | none => 0
  else if r == R.XPRx_W1 then
    match (s.objRender (n / 32)).slots.find? fun e => e.slot == n % 32 && !e.leaving with
    | some e => e.bus
    | none => 0
  else if r == R.XPDx_W0 then
    fieldsInto w [(F.XPDx_W0_FADING, boolNat (match s.xpoint n with | some c => c.fading | none => false))]
  else if r == R.OUTn_STAT then fieldsInto w [(F.OUTn_STAT_XFADE, boolNat (s.outChan n).dly.xf.isSome)]
  else if r == R.CNV_STAT then fieldsInto w [(F.CNV_STAT_FADES, (s.out.filter fun e => e.2.oldFilt.isSome).length)]
  else if r == R.CNV_LIVE then s.liveTaps
  else if r == R.CNV_OUTn_STAT then fieldsInto w [(F.CNV_OUTn_STAT_FADING, boolNat (s.outChan n).oldFilt.isSome)]
  else w

/-- Live words of the cores, the ring, the pair, the fabric, the boot engine and the test unit. -/
def State.liveRest (s : State) (a : Access) (r : Reg) (n w : Nat) : Nat :=
  let x := s.luv n
  if r == R.LDCc_STAT then
    fieldsInto w [(F.LDCc_STAT_SHADOW, boolNat x.inShadow), (F.LDCc_STAT_REP, boolNat (decide (0 < x.rep))),
      (F.LDCc_STAT_LSQ, x.lsq.length), (F.LDCc_STAT_PC, x.pc.toNat)]
  else if r == R.LDCc_TIMER then s.luvTimer n
  else if r == R.LDC_RUN then bitsWhere 32 fun c => s.luvState c == 1 || s.luvState c == 2
  else if r == R.LDC_PEND then bitsWhere 32 fun c => (s.word R.LDCc_EVT [c]) != 0
  else if r == R.LDC_OVR then bitsWhere 32 fun c => (s.luv c).overran
  else if r == R.CAS_TUNn then (s.ring.tun.filter fun e => e.1 == n).length
  else if r == R.RED_STAT then
    fieldsInto w [(F.RED_STAT_FAULT_OUT, boolNat s.faultOut),
      (F.RED_STAT_LOCKED, ((List.range 64).filter s.damLocked).length)]
  else if r == R.FAB_PCIID then partId s.part % 65536 * 65536 + 0x1F3B
  else if r == R.FAB_STAT then
    fieldsInto 0 [(F.FAB_STAT_DRAMQ, (s.drawIn .measure [1] 0 64).toNat), (F.FAB_STAT_OUTST, (s.drawIn .measure [2] 0 256).toNat)]
  else if r == R.BOOT_STAT then
    fieldsInto w [(F.BOOT_STAT_RB_OTP, s.sec.rollback), (F.BOOT_STAT_PQUEUED, min 3 s.boot.waiting.length)]
  else if r == R.TST_STAT then
    let on (b : Bool) (k : Nat) := if b then 2 ^ k else 0
    fieldsInto 0 [(F.TST_STAT_OPEN, boolNat (s.testAccess a)), (F.TST_STAT_ACTIVE,
      on (s.rd F.TST_TSDLY_DLY_A != 0) 0 + on (s.rd F.TST_TSDLY_DLY_B != 0) 1 + on (s.rd F.TST_FRMA_MODE != 0) 2
        + on (s.rd F.TST_FRMB_MODE != 0) 3 + on (s.on F.TST_QFULL_EN) 4 + on (s.rd F.TST_FCHOLD_HOLD != 0) 5
        + on (s.rd F.TST_HOP_CYCLES != 0) 6 + on (s.rd F.TST_DRAM_STALL != 0) 7 + on (s.rd F.TST_JIT_J != 0) 8)]
  else w

/-- What a read of a register returns (active bank), before role and guard rules. Write-only fields read 0. -/
def State.liveWord (s : State) (a : Access) (e : RegEntry) (ix : List Nat) : Nat :=
  let w := (s.word e.reg ix).toNat
  let n := ix.headD 0
  let b := e.reg.base
  let v := if b < 0x10000 then s.liveSys a e.reg n w
    else if b < 0x180000 then s.liveNet e.reg ix w
    else if b < 0x400000 then s.liveAudio e.reg n (ix.getD 1 0) w
    else if b < 0x2800000 then s.liveMix e.reg n w
    else s.liveRest a e.reg n w
  e.fields.foldl (fun v f => if f.acc == .wo then v - f.of (BitVec.ofNat 32 v) * 2 ^ f.lo else v) v

/-- A read that latches other registers (R31, R59, R84). -/
def State.latchRead (s : State) (r : Reg) (ix : List Nat) : State :=
  if r == R.CLK_BLOCK_LO then s.latchBlock
  else if r == R.CLK_EPOCH_NS then s.latchEpoch
  else if r == R.PTP_TIME_NS then s.latchTime
  else if r == R.NP_CNTi_LO then s.latchCounter (ix.headD 0) (ix.getD 1 0)
  else s

end Sys2Proof.Machine
end

