-- ==== Sys2Proof/Machine/Apply.lean ====
section
/-!
DEFINITION. Writing registers by address, and the swap of step 2 of R21: all writes of the commits due take effect together,
and every unit takes its new settings (R234 to R236).
-/

namespace Sys2Proof.Machine

/-- The value a field takes of a written one: clamped to its range (R48, R65, R395). -/
def Field.clamp (f : Field) (v : Nat) : Nat :=
  match f.range with
  | none => v % 2 ^ f.width
  | some (lo, hi) =>
    if lo < 0 then ofSigned f.width (clampInt lo hi (toSigned f.width v)) else clampNat lo.toNat hi.toNat (v % 2 ^ f.width)

/-- What a register's own rule makes of a word: NP_CBS_A.IDLE stays at 75 % of the line rate and NP_CBS_B.IDLE at what NP_CBS_A
leaves of that (R79), PTP_CTRL.DELAY is 1 while PROFILE is 1 (R65), and the reserved bits of a region entry (R204) and of a grid
cell (R205) read 0 (R6). -/
def State.ownRule (s : State) (r : Reg) (ix : List Nat) (w : Word) : Word :=
  let cap := s.lineRate (ix.headD 0) * 3 / 4
  if r == R.NP_CBS_A then F.NP_CBS_A_IDLE.into w (min (F.NP_CBS_A_IDLE.of w) cap)
  else if r == R.NP_CBS_B then F.NP_CBS_B_IDLE.into w (min (F.NP_CBS_B_IDLE.of w) (cap - s.rd F.NP_CBS_A_IDLE ix))
  else if r == R.PTP_CTRL then (if F.PTP_CTRL_PROFILE.of w == 1 then F.PTP_CTRL_DELAY.into w 1 else w)
  else if r == R.RGNe_w && ix.getD 1 0 == 7 then w &&& 0x3FFFFFFF
  else if r == R.GRIDx_c_w && ix.getD 2 0 == 1 then w &&& 0x7FFFFF
  else w

/-- The word that a write of `v` leaves in a register: read-write fields clamped, and with `img` the fields set from the
image. -/
def State.writtenWord (s : State) (e : RegEntry) (ix : List Nat) (v : Word) (img : Bool) : Word :=
  let w := e.fields.foldl (fun w f =>
    if f.acc == .rw || (img && f.acc == .img) then f.into w (f.clamp (f.of v)) else w) (s.word e.reg ix)
  s.ownRule e.reg ix w

/-- Writes a register's own fields. -/
def State.storeReg (s : State) (e : RegEntry) (ix : List Nat) (v : Nat) (img : Bool := false) : State :=
  s.setWord e.reg (s.writtenWord e ix (BitVec.ofNat 32 v) img) ix

/-- Writes the register at an address, if there is one. -/
def State.storeAt (s : State) (addr v : Nat) (img : Bool := false) : State :=
  match findReg addr 0 with
  | some (e, ix) => s.storeReg e ix v img
  | none => s

/-! ## The swap -/

/-- The instances of some registers that a list of addresses touches, each once. -/
def touched (addrs : List Nat) (regs : List Reg) : List Nat :=
  addrs.foldl (fun l a =>
    match regs.findSome? fun r => if a < r.base then none else splitIndex r.dims (a - r.base) with
    | some ix => if l.contains (ix.headD 0) then l else l ++ [ix.headD 0]
    | none => l) []

def rxRegs : List Reg := [R.RXn_CFG, R.RXn_ID_LO, R.RXn_ID_HI, R.RXn_DST_IP, R.RXn_MATCH, R.RXn_SRC_IP, R.RXn_MAP,
  R.RXn_MASK_LO, R.RXn_MASK_HI, R.RXn_PRES_OFS, R.RXn_RTP_OFS, R.RXn_TIMING]
def txRegs : List Reg := [R.TXn_CFG, R.TXn_ID_LO, R.TXn_ID_HI, R.TXn_DST_IP_A, R.TXn_DST_IP_B, R.TXn_DMAC_LO, R.TXn_DMAC_HI,
  R.TXn_UDP, R.TXn_VLAN, R.TXn_SLOT, R.TXn_TX_OFS, R.TXn_RTP_OFS, R.TXn_SEQ_OFS, R.TXn_XFADE]
def inpRegs : List Reg := [R.INPn_SRC, R.INPn_GAIN, R.INPn_DLY, R.INPn_BQ, R.INPn_BQk_Cc]
def outRegs : List Reg := [R.OUTn_TRIM, R.OUTn_DLY, R.OUTn_LIM, R.OUTn_REL, R.OUTn_BQ, R.OUTn_BQk_Cc]
def targetRegs : List Reg := [R.QNC_OBJn_TPOS0, R.QNC_OBJn_TPOS1, R.QNC_OBJn_TPOS2, R.QNC_OBJn_TGAIN, R.QNC_OBJn_TSHAPE,
  R.QNC_OBJn_TFLAGS]

/-- The transmit contexts whose slots lie among some changed STR_TXSLOTs. -/
def State.slotUsers (s : State) (slots : List Nat) : List Nat :=
  (s.str.tx.map (·.1)).filter fun n =>
    let c := s.txCfg n
    slots.any fun k => decide (c.base ≤ k) && decide (k < c.base + c.ch)

/-- Every unit takes the settings of the addresses written; `s0` is the state before, `hard` sets them before audio starts
without ramps (R371, R374). -/
def State.takeSettings (s0 : State) (hard : Bool) (addrs : List Nat) (s : State) : State :=
  let t := touched addrs
  let s := (t [R.LINEl_CFG, R.LINEl_BASE]).foldl State.lineApply s
  let s := (t [R.BRMq_CFG, R.BRMq_SIZE, R.BRMq_HWM, R.BRMq_LWM]).foldl
    (fun s q => s.brmApply (s0.word R.BRMq_CFG [q]).toNat q) s
  let s := (t [R.SAPp_CFG, R.SAPp_QMAP]).foldl
    (fun s p => s.sapApply (s0.word R.SAPp_CFG [p]).toNat (s0.sapQueue p) p) s
  let s := (t rxRegs).foldl (fun s n => s.rxApply hard n) s
  let tx := t txRegs
  let users := (s.slotUsers (t [R.STR_TXSLOTs])).filter fun n => !tx.contains n
  let s := (tx ++ users).foldl (fun s n => s.txApply hard n) s
  let s := (t inpRegs).foldl (State.inpApply s0 hard) s
  let s := if addrs.contains R.QNC_CTRL.base then State.qncApply s0 s hard else s
  let s := { s with scene := { s.scene with
    hostDue := s.scene.hostDue ++ (t targetRegs).map s.targetRecord } }
  let s := (t [R.XPDx_W0, R.XPDx_W1]).foldl (State.xpApply s0 hard) s
  let s := (t outRegs).foldl (State.outApply s0 hard) s
  let s := (t [R.CNV_OUTn_SEL, R.CNV_OUTn_LEN]).foldl (State.cnvApply s0 hard) s
  let s := (t [R.OUTn_FIRLEN, R.OUTn_FIRj]).foldl (State.firApply s0 hard) s
  let maps := addrs.filterMap fun a =>
    if a < R.CAS_MAPg_l.base then none
    else (splitIndex R.CAS_MAPg_l.dims (a - R.CAS_MAPg_l.base)).map fun ix => 512 * ix.headD 0 + ix.getD 1 0
  let s := maps.foldl (State.casApply s0 hard) s
  let s := (t [R.RED_DAMp]).foldl (fun s p => if s.on F.RED_DAMp_EN [p] then s else s.setDamLock p false) s
  let s := [0, 1].foldl State.groupsChange s
  s.allocate

/-- The writes of the commits due take effect together (R236, R415). -/
def State.swap (s : State) (writes : List (Nat × Nat)) : State :=
  let t := writes.foldl (fun s w => s.storeAt w.1 w.2) s
  State.takeSettings s false (writes.map (·.1)) t

/-- A register is safe-loaded (R234, R315, R354). -/
def RegEntry.safe (e : RegEntry) : Bool := e.attrs.contains .safe

end Sys2Proof.Machine
end

