-- ==== Sys2Proof/Machine/Effects.lean ====
section
/-!
DEFINITION. What follows at once when a write changes the read-write fields of a register that is not safe-loaded (R65, R68,
R83, R126, R133, R146, R173, R282, R284, R391, R398), and writes that the device ignores.
-/

namespace Sys2Proof.Machine

/-- Ring `r` of a port belongs to a queue that is enabled (R398). -/
def State.ringEnabled (s : State) (p r : Nat) : Bool :=
  if r < 4 then s.on F.NP_HQ_VLANq_TX_EN [p, r] else s.on F.NP_HQ_VLANq_RX_EN [p, r - 4]

/-- Clearing a queue's enables: a transmit queue completes its descriptors with FLUSHED, and the frame-queue engine is reset
(R73, R391, R398). -/
def State.queueChange (s0 s : State) (p q : Nat) : State :=
  let tx := s0.on F.NP_HQ_VLANq_TX_EN [p, q] && !s.on F.NP_HQ_VLANq_TX_EN [p, q]
  let rx := s0.on F.NP_HQ_VLANq_RX_EN [p, q] && !s.on F.NP_HQ_VLANq_RX_EN [p, q]
  let s := if tx then s.flushQueue p q else s
  if tx || rx then s.drain (queueMaster p) else s

/-- The owner field of OSP_OBJn keeps its value; the written owner waits for the next boundary (R126). -/
def State.ownerChange (s0 s : State) (n : Nat) : State :=
  let new := s.rd F.OSP_OBJn_OWNER [n]
  let old := s0.rd F.OSP_OBJn_OWNER [n]
  if new == old then s else (s.setOwner n old).writeOwner n new

/-- A core in FAULT starts again only after RUN was cleared (R284). -/
def State.runChange (s0 s : State) (c : Nat) : State :=
  if s0.on F.LDCc_CTRL_RUN [c] && !s.on F.LDCc_CTRL_RUN [c] && s.luvState c == 3 then
    s.setLuv c { s.luv c with rearm := true }
  else s

/-- What follows a change of a register; `s0` is the state before it. -/
def State.afterChange (s0 s : State) (r : Reg) (ix : List Nat) : State :=
  let n := ix.headD 0
  if r == R.NP_CFG then (if s0.on F.NP_CFG_EN [n] && !s.on F.NP_CFG_EN [n] then s.linkFalls n else s)
  else if r == R.NP_HQ_VLANq then State.queueChange s0 s n (ix.getD 1 0)
  else if r == R.NP_HGROUPg then s.groupsChange n
  else if r == R.PTP_CTRL then (s.ptpRestart n).groupsChange n
  else if r == R.OSP_CTRL then (if s0.on F.OSP_CTRL_EN && !s.on F.OSP_CTRL_EN then s.ospOff else s)
  else if r == R.OSP_OBJn then State.ownerChange s0 s n
  else if r == R.MDI_CTRL then (if s0.on F.MDI_CTRL_EN && !s.on F.MDI_CTRL_EN then s.mdiOff else s)
  else if r == R.CLK_OUTCFG then (if s.on F.CLK_OUTCFG_PPS_EN then s else s.ppsLow)
  else if r == R.SAPp_THR then s.setDev n (s.rd F.SAPp_RATE_RATE [n])
  else if r == R.LDCc_CTRL then State.runChange s0 s n
  else if r == R.LDCc_TIMER then s.setLuv n { s.luv n with timer3 := s.upNow3 }
  else s

/-- The layout whose tables a register holds, when it may not be written: it is live, or fading out (R220). -/
def State.layoutBusy (s : State) (x : Nat) : Bool :=
  s.rd F.QNC_STAT_LIVE == x || (s.on F.QNC_STAT_FADING && s.rd F.QNC_STAT_FROM == x)

/-- A region entry belongs to such a layout. -/
def State.regionBusy (s : State) (e : Nat) : Bool :=
  (List.range 4).any fun x => s.layoutBusy x && decide (s.rd F.QNC_LAYx_REG_BASE [x] ≤ e)
    && decide (e < s.rd F.QNC_LAYx_REG_BASE [x] + s.rd F.QNC_LAYx_REG_COUNT [x])

/-- A write to a layout's tables that R220 ignores. -/
def State.tableBusy (s : State) (r : Reg) (ix : List Nat) : Bool :=
  if r == R.RGNe_w then s.regionBusy (ix.headD 0)
  else (r == R.GRIDx_c_w || r == R.QNC_LAYx_SPKs || r == R.QNC_LAYx_DISTi) && s.layoutBusy (ix.headD 0)

/-- Read-write fields of this copy do not change now: a ring of an enabled queue, a scope of a transaction that is not
IDLE (R398, R411). -/
def State.fixedNow (s : State) (r : Reg) (ix : List Nat) : Bool :=
  if r == R.NP_HRr_CFG then s.ringEnabled (ix.headD 0) (ix.getD 1 0)
  else (r == R.TXN_SCOPEk_BASE || r == R.TXN_SCOPEk_LEN) && s.rd F.TXN_STAT_STATE [ix.getD 1 0] != 0

/-- A register write that takes effect now, with what follows it. -/
def State.storeNow (s : State) (e : RegEntry) (ix : List Nat) (v : Nat) : State :=
  if s.fixedNow e.reg ix then s
  else if s.tableBusy e.reg ix then (s.count F.QNC_CNT_TBL_BUSY_V).raise F.QNC_EVT_TBL_BUSY
  else
    let t := s.storeReg e ix v
    if t.word e.reg ix == s.word e.reg ix then t else State.afterChange s t e.reg ix

/-- The writes of the commits due on a block: the safe-loaded ones in one swap (R236), the others with what follows them
(R415). -/
def State.applyWrites (s : State) (writes : List (Nat × Nat)) : State :=
  let safe (a : Nat) : Bool := match findReg a 0 with | some (e, _) => e.safe | none => false
  let s := s.swap (writes.filter fun w => safe w.1)
  (writes.filter fun w => !safe w.1).foldl (fun s w =>
    match findReg w.1 0 with
    | some (e, ix) => s.storeNow e ix w.2
    | none => s) s

end Sys2Proof.Machine
end

