-- ==== Sys2Proof/Machine/Validate.lean ====
section
/-!
DEFINITION. The validation of a commit or an image: every rule by which a chapter refuses it (R104, R107, R155, R158, R196,
R219, R221, R231, R242, R257, R263, R290, R339, R361). A rule is a pair: it is broken, and the address of the register
whose value the rule concerns (0 where it concerns several, R417).
-/

namespace Sys2Proof.Machine

/-- What a validation finds broken, with the address to report. -/
abbrev Broken := List (Bool × Nat)

/-- Two numbers of a list are equal. -/
def anyTwice {α : Type} [DecidableEq α] : List α → Bool
  | [] => false
  | x :: l => l.contains x || anyTwice l

/-- Two half-open ranges of a list meet. -/
def anyMeet : List (Nat × Nat) → Bool
  | [] => false
  | (a, n) :: l => (l.any fun e => decide (a < e.1 + e.2) && decide (e.1 < a + n)) || anyMeet l

/-- A pending commit as a validation sees it: its block, the registers before and after it, and the addresses it writes. -/
structure PendStep where
  block : Nat
  before : State
  after : State
  addrs : List Nat

/-! ## Streams (R69, R87 to R90, R104) -/

def State.rxEnabled (s : State) : List Nat := (List.range 256).filter fun n => s.on F.RXn_CFG_EN [n]
def State.txEnabled (s : State) : List Nat := (List.range 256).filter fun n => s.on F.TXn_CFG_EN [n]

/-- The asynchronous channels of streams and ports (R89, R104, R155). -/
def State.asyncCount (s : State) : Nat :=
  (s.rxEnabled.map fun n =>
    let c := s.rxCfg n
    if s.rxPath c == .async then c.wants.length else 0).sum
  + ((List.range 32).map fun p =>
    if s.on F.SAPp_CFG_EN [p] && !s.sapSends p && !s.on F.SAPp_CFG_SYNC [p] then (s.sapSlots p).length else 0).sum

/-- The rate and format of a context are ones of R87 and R88. -/
def codecOk (rtp : Bool) (fmt rate : Nat) : Bool := (nsrHz rate).isSome && decide (fmt ≤ 2) && !(rtp && fmt == 0)

/-- The bytes of a transmit context's frame (R69). -/
def TxCfg.frameBytes (c : TxCfg) : Nat :=
  TxPacket.length { ctx := 0, rtp := c.rtp, ident := 0, pt := 0, fmt := c.fmt, rate := c.rate, ch := c.ch, seq := 0, time := 0,
                    due3 := 0, sip := 0, dst := 0, dmac := 0, udp := 0, dscp := 0,
                    tag := if c.ins then some (0, 0) else none, frames := List.replicate c.frames [] }

/-- The channels of transmit identities that a commit at block `b` retires and that still fade out at block `c` (R104, R107). -/
def PendStep.txRetired (e : PendStep) (c : Nat) : Nat :=
  ((touched e.addrs txRegs).map fun n =>
    let old := e.before.txCfg n
    let goes := e.before.on F.TXn_CFG_EN [n] && (!e.after.on F.TXn_CFG_EN [n] || !old.sameId (e.after.txCfg n))
    if goes && decide (32 * (c - e.block) < e.after.rampSamples (e.after.txCfg n).xfade) then old.ch else 0).sum

/-- Transmit identities that fade out at block `c`: their channels count as well. -/
def State.txFading (m : State) (steps : List PendStep) (c : Nat) : Nat :=
  (m.str.tx.map fun e => (e.2.map fun i =>
    if i.dying && decide (32 * (c - m.time.block) < i.fade.rest) then i.cfg.ch else 0).sum).sum
  + (steps.map fun e => e.txRetired c).sum

/-- The match fields of R90 that a context uses. The ports are none of them (log entry 162). -/
def RxCfg.matchFields (k : RxCfg) : Bool × (Nat × Nat × Nat) × Option Nat × Option Nat :=
  (k.rtp, (if k.rtp then (k.dst, k.udp, k.src) else (0, 0, 0)),
   (if k.rtp then (if k.ident / 2 ^ 63 == 0 then none else some (k.ident % 2 ^ 32)) else some k.ident),
   if k.tagged then some k.vid else none)

def State.streamRules (m s : State) (steps : List PendStep) (c : Nat) : Broken :=
  let rx := s.rxEnabled
  let tx := s.txEnabled
  let feeds := rx.flatMap fun n => (s.rxCfg n).wants.map (·.2)
  let matches_ := rx.map fun n => (s.rxCfg n).matchFields
  [(decide (2048 < feeds.length), 0), (anyTwice feeds, 0), (decide (1024 < s.asyncCount), 0),
   (decide (1024 < (tx.map fun n => (s.txCfg n).ch).sum + m.txFading steps c), 0),
   (anyMeet (tx.map fun n => ((s.txCfg n).base, (s.txCfg n).ch)), 0), (anyTwice matches_, 0)]
  ++ rx.map (fun n => (!codecOk (s.rxCfg n).rtp (s.rxCfg n).fmt (s.rxCfg n).rate, R.RXn_CFG.key [n]))
  ++ rx.map (fun n => (decide (2048 < (s.rxCfg n).base + (s.rxCfg n).ch), R.RXn_MAP.key [n]))
  ++ tx.map (fun n =>
    let k := s.txCfg n
    (!codecOk k.rtp k.fmt k.rate || pathOf ((nsrHz k.rate).getD 48000) s.rateHz == .async, R.TXn_CFG.key [n]))
  ++ tx.flatMap (fun n =>
    let k := s.txCfg n
    k.portList.map fun p => (decide (s.lengthLimit p (if k.ins then 1 else 0) < k.frameBytes), R.TXn_CFG.key [n]))
  ++ (List.range 1024).map fun k =>
    (decide (s.outCount ≤ s.rd F.STR_TXSLOTs_BUS [k]), R.STR_TXSLOTs.key [k])

/-! ## Serial ports and queues (R155, R158) -/

def State.queueRules (s : State) : Broken :=
  let ports := (List.range 32).filter fun p => s.on F.SAPp_CFG_EN [p]
  let qs := (List.range 256).filter fun q => s.on F.BRMq_CFG_EN [q]
  let kinds (q w r : Nat) : Bool := s.rd F.BRMq_CFG_WRITER [q] != w || s.rd F.BRMq_CFG_READER [q] != r
  [(anyTwice (ports.map s.sapQueue), 0), (decide (65536 < (qs.map fun q => s.rd F.BRMq_SIZE_RSV [q]).sum), 0)]
  ++ ports.flatMap (fun p =>
    let q := s.sapQueue p
    [(!s.on F.BRMq_CFG_EN [q], R.SAPp_QMAP.key [p]),
     (s.on F.BRMq_CFG_EN [q] && (if s.sapSends p then kinds q 3 3 else kinds q 1 1), R.SAPp_QMAP.key [p])])
  ++ (List.range 32).flatMap (fun p =>
    let sends := s.sapSends p
    let rate := s.rd F.SAPp_CFG_RATE [p]
    [(s.on F.SAPp_CFG_SYNC [p] && (nsrHz rate).isNone, R.SAPp_CFG.key [p]),
     (sends && (!s.on F.SAPp_CFG_SYNC [p] || pathOf ((nsrHz rate).getD 48000) s.rateHz == .async), R.SAPp_CFG.key [p]),
     (decide (s.outCount ≤ s.rd F.SAPp_TXBUS_BUS_L [p]) || decide (s.outCount ≤ s.rd F.SAPp_TXBUS_BUS_R [p]),
      R.SAPp_TXBUS.key [p])])
  ++ (List.range 256).flatMap (fun q =>
    [(decide (s.rd F.BRMq_SIZE_CAP [q] < s.rd F.BRMq_SIZE_RSV [q]), R.BRMq_SIZE.key [q]),
     (decide (s.rd F.BRMq_HWM_MARK [q] ≤ s.rd F.BRMq_LWM_MARK [q]), R.BRMq_LWM.key [q]),
     (decide (2 * s.rd F.BRMq_SIZE_CAP [q] < s.rd F.BRMq_HWM_MARK [q]), R.BRMq_HWM.key [q])])
  ++ ((List.range 8).filter fun t => s.on F.MDI_TAGMAPt_EN [t]).map fun t =>
    let q := s.rd F.MDI_TAGMAPt_QUEUE [t]
    (s.on F.BRMq_CFG_EN [q] && kinds q 2 (if s.on F.MDI_TAGMAPt_KIND [t] then 0 else 2), R.BRMq_CFG.key [q])

/-! ## Input stage, lines and output delays (R190, R196, R242) -/

/-- The enabled lines of an owner. -/
def State.linesOf (s : State) (kind n : Nat) : List Nat :=
  (List.range 1536).filter fun l =>
    s.on F.LINEl_CFG_EN [l] && s.rd F.LINEl_CFG_OWNER_KIND [l] == kind && s.rd F.LINEl_CFG_OWNER [l] == n

/-- The capacity of a line in samples. -/
def State.lineCap (s : State) (l : Nat) : Nat :=
  s.rd F.LINEl_CFG_LEN [l] * (if s.on F.LINEl_CFG_CODING [l] then 15 else 10)

/-- An owner's delay breaks R190. -/
def State.delayBad (s : State) (kind n d : Nat) : Bool :=
  d != 0 && (match s.linesOf kind n with
    | [] => true
    | l :: _ => decide (s.lineCap l < d + 64))

def State.lineRules (s0 s : State) (hard : Bool) : Broken :=
  let ls := (List.range 1536).filter fun l => s.on F.LINEl_CFG_EN [l]
  let region := s.rd F.INP_DLYREG_SIZE * 32768
  let owner l := (s.rd F.LINEl_CFG_OWNER_KIND [l], s.rd F.LINEl_CFG_OWNER [l])
  [(anyTwice (ls.map owner), 0), (anyMeet (ls.map fun l => (s.rd F.LINEl_BASE_BASE [l], s.rd F.LINEl_CFG_LEN [l])), 0),
   (decide (s.rd F.SYS_DRAMSIZE_MIB < s.rd F.INP_DLYREG_BASE + s.rd F.INP_DLYREG_SIZE), R.INP_DLYREG.base),
   (!hard && s0.word R.INP_DLYREG != s.word R.INP_DLYREG, R.INP_DLYREG.base)]
  ++ ls.flatMap fun l =>
    let n := s.rd F.LINEl_CFG_LEN [l]
    let (k, o) := owner l
    [(decide (region < s.rd F.LINEl_BASE_BASE [l] + n), R.LINEl_BASE.key [l]),
     (n == 0 || decide ((if s.on F.LINEl_CFG_CODING [l] then 17481 else 26221) < n), R.LINEl_CFG.key [l]),
     (k == 3 || (k == 1 && decide (s.objCount ≤ o)) || (k == 2 && decide (s.outCount ≤ o)), R.LINEl_CFG.key [l])]

def State.inputRules (s : State) : Broken :=
  (List.range 2048).flatMap fun n =>
    let k := s.rd F.INPn_SRC_KIND [n]
    [(k == 3 || (k == 2 && decide (64 ≤ s.rd F.INPn_SRC_INDEX [n])), R.INPn_SRC.key [n]),
     (s.delayBad 0 n (s.rd F.INPn_DLY_DELAY [n]), R.INPn_DLY.key [n])]

/-- The point of an output or an input channel that an enabled XOUT entry names (R285, R290). -/
def State.pointNamed (s : State) (kind n : Nat) : Bool := (xoutOf s.xouts kind n).isSome

def State.outputRules (s : State) : Broken :=
  (List.range s.outCount).flatMap fun n =>
    [(s.delayBad 2 n (s.rd F.OUTn_DLY_DELAY [n]), R.OUTn_DLY.key [n]),
     ((s.rd F.OUTn_BQ_EN [n] != 0 || s.on F.OUTn_LIM_EN [n]) && !s.pointNamed 1 n, R.OUTn_BQ.key [n]),
     (!s.hasCnv && decide (128 < s.rd F.OUTn_FIRLEN_LEN [n]), R.OUTn_FIRLEN.key [n]),
     (!s.hasCnv && s.rd F.OUTn_FIRLEN_LEN [n] != 0 && !s.pointNamed 1 n, R.OUTn_FIRLEN.key [n])]

/-! ## Crosspoints and room correction (R231, R242, R244, R245, R257, R260, R263) -/

/-- The direct crosspoints that a state has enabled: an enabled one differs from its reset value, so its word is listed. -/
def State.xpUsed (s : State) : List Nat :=
  (s.regs.filterMap fun e => if e.1 < R.XPDx_W0.base then none
    else (splitIndex R.XPDx_W0.dims (e.1 - R.XPDx_W0.base)).map (·.headD 0)).filter fun x => s.on F.XPDx_W0_EN [x]

def State.xpRules (s : State) (xs : List Nat) : Broken :=
  xs.map fun x =>
    let k := s.rd F.XPDx_W1_SKIND [x]
    (s.on F.XPDx_W0_EN [x] && (decide (2 ≤ k) || (k == 1 && decide (s.objCount ≤ s.rd F.XPDx_W1_SRC [x]))
      || decide (s.outCount ≤ s.rd F.XPDx_W1_BUS [x])), R.XPDx_W1.key [x])

def State.cnvRules (s : State) (job : Option StageJob) : Broken :=
  if !s.hasCnv then []
  else
    let fs := (List.range s.outCount).filterMap fun n => (s.selection n).map fun f => (n, f)
    (decide (s.tapPool < (fs.map fun e => e.2.cells).sum), 0) ::
    fs.flatMap fun e =>
      [(decide (s.tapPool < e.2.base + e.2.cells), R.CNV_OUTn_SEL.key [e.1]),
       (match job with | some j => e.2.meets j.bank j.cell j.cells | none => false, R.CNV_OUTn_SEL.key [e.1])]

/-! ## The renderer (R202, R219, R221) -/

/-- The rules of a layout that is checked. -/
def State.layoutRules (s : State) (x : Nat) : Broken :=
  let base := s.rd F.QNC_LAYx_REG_BASE [x]
  let count := s.rd F.QNC_LAYx_REG_COUNT [x]
  let spk := s.rd F.QNC_LAYx_CFG_NSPK_M1 [x]
  let slots := (List.range (spk + 1)).filter fun k => s.on F.QNC_LAYx_SPKs_EN [x, k]
  let outs := slots.map fun k => s.rd F.QNC_LAYx_SPKs_OUT [x, k]
  let others := (List.range 4).filter fun y => y != x && s.on F.QNC_LAYx_CFG_EN [y]
  let entryBad (e : Nat) : Bool :=
    let r := s.region e
    let rows := (List.range (regionRows r)).map (regionSlot r)
    regionType r == 0 || regionType r == 3 || rows.any (fun k => decide (spk < k)) || anyTwice rows
  let cellBad (c : Nat) : Bool :=
    let w := s.gridCell x c
    let n := w / 2 ^ 52 % 8
    n == 0 || decide (4 < n) || (List.range n).any fun k =>
      let e := w / 2 ^ (13 * k) % 8192
      decide (e < base) || decide (base + count ≤ e)
  [(decide (8192 < base + count), R.QNC_LAYx_REG.key [x]),
   (others.any fun y =>
      let b := s.rd F.QNC_LAYx_REG_BASE [y]
      decide (b < base + count) && decide (base < b + s.rd F.QNC_LAYx_REG_COUNT [y]), R.QNC_LAYx_REG.key [x]),
   (anyTwice outs || outs.any (fun b => decide (s.outCount ≤ b)), R.QNC_LAYx_CFG.key [x]),
   ((List.range (min count 8192)).any (fun i => entryBad (base + i)), R.QNC_LAYx_REG.key [x]),
   ((List.range 8192).any cellBad, R.QNC_LAYx_CFG.key [x])]

/-- The layouts that R221 has checked: newly enabled, becoming live, or live with changed settings. -/
def State.layoutsChecked (s0 s : State) (hard : Bool) : List Nat :=
  let live := s.rd F.QNC_CTRL_ACTIVE
  (List.range 4).filter fun x =>
    let settings (t : State) := [R.QNC_LAYx_CFG, R.QNC_LAYx_REG, R.QNC_LAYx_DIST, R.QNC_LAYx_DREF, R.QNC_LAYx_NEAR,
      R.QNC_LAYx_TOL].map fun r => t.word r [x]
    (s.on F.QNC_LAYx_CFG_EN [x] && (hard || !s0.on F.QNC_LAYx_CFG_EN [x]))
      || (x == live && (hard || s0.rd F.QNC_CTRL_ACTIVE != live || settings s0 != settings s)
          && s.on F.QNC_LAYx_CFG_EN [x])

/-- ACTIVE may name a disabled layout only as it does after reset, before any layout is enabled (log entry 163). -/
def State.rendererRules (s0 s : State) (hard : Bool) : Broken :=
  let live := s.rd F.QNC_CTRL_ACTIVE
  let used := (List.range s.objCount).filter fun n => s.on F.QNC_OBJn_CFG_EN [n]
  let some_ := (List.range 4).any fun x => s.on F.QNC_LAYx_CFG_EN [x]
  let was := s0.on F.QNC_LAYx_CFG_EN [live]
  [((hard && (!used.isEmpty || live != 0 || some_) || !hard && (s0.rd F.QNC_CTRL_ACTIVE != live || was))
      && !s.on F.QNC_LAYx_CFG_EN [live], R.QNC_CTRL.base)]
  ++ (State.layoutsChecked s0 s hard).flatMap s.layoutRules
  ++ used.map fun n => (s.on F.QNC_OBJn_CFG_DLY_EN [n] && (s.linesOf 1 n).isEmpty, R.QNC_OBJn_CFG.key [n])

/-! ## Cores, ring and pair (R290, R339, R361) -/

def State.coreRules (s : State) (hard : Bool) : Broken :=
  let points := s.xouts.map fun e => (e.2.2.1, e.2.2.2)
  let bound (k i : Nat) : Bool := decide ((if k == 1 then s.outCount else 2048) ≤ i)
  let bad (kind index : Field) : Bool := (List.range s.coreCount).any fun c => (List.range 256).any fun f =>
    bound (s.rd kind [c, f]) (s.rd index [c, f])
  [(anyTwice points, 0),
   ((List.range 2048).any fun n => s.rd F.INPn_BQ_EN [n] != 0 && !s.pointNamed 0 n, 0)]
  ++ if hard then
    [(bad F.LDCc_XINf_KIND F.LDCc_XINf_INDEX, 0), (bad F.LDCc_XOUTf_KIND F.LDCc_XOUTf_INDEX, 0)]
    else []

/-- The buses that stream slots, serial ports and Damson paths use as outputs. -/
def State.outputUsers (s : State) : List Nat :=
  ((List.range 1024).filter fun k => s.on F.STR_TXSLOTs_EN [k]).map (fun k => s.rd F.STR_TXSLOTs_BUS [k])
  ++ ((List.range 32).filter fun p => s.on F.SAPp_CFG_EN [p] && s.sapSends p).flatMap
    (fun p => [s.rd F.SAPp_TXBUS_BUS_L [p], s.rd F.SAPp_TXBUS_BUS_R [p]])
  ++ s.damsonPaths.map (·.2)

/-- The enabled map entries: bus, group, line. An enabled entry differs from its reset value, so its word is listed. -/
def State.mapEntries (s : State) : List (Nat × Nat × Nat) :=
  (s.regs.filterMap fun e => if e.1 < R.CAS_MAPg_l.base then none else splitIndex R.CAS_MAPg_l.dims (e.1 - R.CAS_MAPg_l.base)).filterMap
    fun ix => if s.on F.CAS_MAPg_l_EN ix then some (s.rd F.CAS_MAPg_l_BUS ix, ix.getD 0 0, ix.getD 1 0) else none

def State.ringRules (s : State) (hard : Bool) : Broken :=
  if !s.hasCas || !s.on F.CAS_CFG_EN then [(hard && s.paired, 0)]
  else
    let n := s.casSize
    let map := s.mapEntries
    let gives := (s.lineMap false).filter fun e => s.rd F.CAS_GRPg_SINK [e.2.1] != s.dev
    let users := s.outputUsers
    [(decide (n < 2) || decide (2 ^ s.cap F.SYS_CAPS_CAS_SIZE < n) || decide (n ≤ s.dev), 0),
     ((List.range 8).any fun g => s.on F.CAS_GRPg_EN [g] && decide (n ≤ s.rd F.CAS_GRPg_SINK [g]), 0),
     (anyTwice (map.map (·.1)), 0)]
    ++ map.map (fun e => (decide (s.outCount ≤ e.1), R.CAS_MAPg_l.key [e.2.1, e.2.2]))
    ++ gives.map fun e => (users.contains e.1, R.CAS_MAPg_l.key [e.2.1, e.2.2])

/-- The Damson rules hold whether or not pairing is enabled, and the bound of OUT for a disabled path too. -/
def State.pairRules (s : State) : Broken :=
  if !s.hasRed then []
  else
    let n := s.casSize
    let p := s.rd F.RED_CFG_PARTNER
    let outs := s.damsonPaths
    let lines := (s.lineMap false).map (·.1)
    let feeds := s.xpUsed.map fun x => (s.rd F.XPDx_W1_BUS [x], s.rd F.XPDx_W1_SKIND [x], s.rd F.XPDx_W1_SRC [x])
    let live := s.rd F.QNC_CTRL_ACTIVE
    let rendered := ((List.range (s.rd F.QNC_LAYx_CFG_NSPK_M1 [live] + 1)).filter fun k =>
      s.on F.QNC_LAYx_SPKs_EN [live, k]).map fun k => s.rd F.QNC_LAYx_SPKs_OUT [live, k]
    let objects := (List.range s.objCount).any fun k => s.on F.QNC_OBJn_CFG_EN [k]
    [(s.paired && p != (s.dev + 1) % n && p != (s.dev + n - 1) % n, 0), (anyTwice (outs.map (·.2)), 0)]
    ++ (List.range 64).map (fun d => (decide (s.outCount ≤ s.rd F.RED_DAMp_OUT [d]), R.RED_DAMp.key [d]))
    ++ outs.map fun e =>
      ((objects && rendered.contains e.2) || lines.contains e.2
        || feeds.any (fun f => f.1 == e.2 && (f.2.1 == 1 || s.rd F.INPn_SRC_KIND [f.2.2] != 1)), R.RED_DAMp.key [e.1])

/-! ## Changes against a fade (R107, R219, R231, R257, R415) -/

/-- What a commit does to a fade: kind (1 filter, 2 layout, 3 and 4 stream identities), instance, the length in samples of the fade
it starts (0: none), and whether it changes what a running fade of that instance forbids. -/
structure FadeStart where
  kind : Nat
  inst : Nat
  len : Nat
  forbidden : Bool

/-- The fades of filters, layouts and stream identities that a commit starts. -/
def State.fadesOf (s0 s : State) (addrs : List Nat) : List FadeStart :=
  let t := touched addrs
  let cnv := (t [R.CNV_OUTn_SEL, R.CNV_OUTn_LEN]).filterMap fun n =>
    if s0.word R.CNV_OUTn_SEL [n] == s.word R.CNV_OUTn_SEL [n] && s0.word R.CNV_OUTn_LEN [n] == s.word R.CNV_OUTn_LEN [n] then none
    else some { kind := 1, inst := n, len := if s0.selection n == s.selection n then 0 else 1024, forbidden := true }
  let lay := if s0.rd F.QNC_CTRL_ACTIVE == s.rd F.QNC_CTRL_ACTIVE then []
    else [{ kind := 2, inst := 0, len := 32 * s.msBlocks (s.rd F.QNC_CTRL_LXF), forbidden := true }]
  let identity (kind n xfade : Nat) (en0 en same : Bool) : Option FadeStart :=
    if (en0 == en && same) || (!en0 && !en) then none
    else some { kind := kind, inst := n, len := s.rampSamples xfade, forbidden := true }
  let rx := (t rxRegs).filterMap fun n =>
    identity 3 n (s.rxCfg n).xfade (s0.on F.RXn_CFG_EN [n]) (s.on F.RXn_CFG_EN [n]) ((s0.rxCfg n).sameId (s.rxCfg n))
  let tx := (t txRegs).filterMap fun n =>
    identity 4 n (s.txCfg n).xfade (s0.on F.TXn_CFG_EN [n]) (s.on F.TXn_CFG_EN [n]) ((s0.txCfg n).sameId (s.txCfg n))
  cnv ++ lay ++ rx ++ tx

/-- The samples that a running fade still has from the present block on. -/
def State.fadeRest (m : State) (kind n : Nat) : Nat :=
  match kind with
  | 1 => match (m.outChan n).oldFilt with | some (_, k) => 1024 + 32 - k | none => 0
  | 2 => match m.swapAt with | some (b, k) => 32 * (b + k - m.time.block) | none => 0
  | 3 => ((m.rxIds n).map fun i => i.fade.rest).foldl max 0
  | _ => ((m.txIds n).map fun i => i.fade.rest).foldl max 0

/-- The samples from block 0 at which the ghost and the released route of a crosspoint will have reached 0 (R230), after a commit
that takes its words from those of `s0` to those of `s`. -/
def xpFade (x : Nat) (e : Nat × Nat) (step : PendStep) : Nat × Nat :=
  let en0 := step.before.on F.XPDx_W0_EN [x]
  let en := step.after.on F.XPDx_W0_EN [x]
  let stop := 32 * step.block + step.after.rampSamples (step.after.rd F.XPDx_W1_RAMP [x])
  if en0 && !en then (e.1, stop)
  else if !en0 && en then (e.1, 0)
  else if en && !Route.same (step.before.xpRoute x (Ramp.still 0)) (step.after.xpRoute x (Ramp.still 0)) then (stop, e.2)
  else e

/-- The same as it stands before block `c`: what runs now, and what the pending commits change. -/
def State.xpFades (m : State) (steps : List PendStep) (x : Nat) : Nat × Nat :=
  let here := 32 * m.time.block
  let now := match m.xpoint x with
    | some c => ((match c.ghost with | some g => here + (g.gain.n - g.gain.k) | none => 0),
                 if c.releasing then here + (c.route.gain.n - c.route.gain.k) else 0)
    | none => (0, 0)
  steps.foldl (xpFade x) now

/-- The address of a commit's first write to an instance. -/
def writeOf (addrs : List Nat) (kind n : Nat) : Nat :=
  let regs := match kind with
    | 0 => [R.XPDx_W1, R.XPDx_W0] | 1 => [R.CNV_OUTn_SEL, R.CNV_OUTn_LEN] | 2 => [R.QNC_CTRL] | 3 => rxRegs | _ => txRegs
  (addrs.find? fun a => (touched [a] regs).contains n).getD 0

/-- A change that meets, at block `c`, a fade that runs now or that a pending commit starts. -/
def State.fadeRules (m s0 s : State) (addrs : List Nat) (steps : List PendStep) (c : Nat) : Broken :=
  let before := steps.flatMap fun e => (State.fadesOf e.before e.after e.addrs).map fun f => (e.block, f)
  (State.fadesOf s0 s addrs).map (fun f =>
    let now := decide (32 * (c - m.time.block) < m.fadeRest f.kind f.inst)
    let due := before.any fun b => b.2.kind == f.kind && b.2.inst == f.inst && decide (b.1 ≤ c) && decide (32 * (c - b.1) < b.2.len)
    (f.forbidden && (now || due), writeOf addrs f.kind f.inst))
  ++ (touched addrs [R.XPDx_W0, R.XPDx_W1]).map fun x =>
    let e := m.xpFades steps x
    (!Route.same (s0.xpRoute x (Ramp.still 0)) (s.xpRoute x (Ramp.still 0)) && decide (32 * c < max e.1 e.2), writeOf addrs 0 x)

/-- The owner of an object at block `c`: the latest write that takes effect by then and names no closed session (R126). -/
def State.ownerAt (m : State) (steps : List PendStep) (c n : Nat) : Nat :=
  let writes := (m.scene.owners.lookup n).toList
    ++ ((steps.filter fun e => decide (e.block < c) && e.addrs.contains (R.OSP_OBJn.key [n])).map fun e =>
      e.after.rd F.OSP_OBJn_OWNER [n])
  (writes.map fun v => if 10 ≤ v then 15 else v).foldl (fun o v => if v < 8 && (m.osp.ses.lookup v).isNone then o else v) (m.owner n)

/-- Target registers are written of an object that the host does not own at the commit block (R202). -/
def State.targetRules (m : State) (steps : List PendStep) (addrs : List Nat) (c : Nat) : Broken :=
  (touched addrs targetRegs).map fun n =>
    (m.ownerAt steps c n != 8, (addrs.find? fun a => (touched [a] targetRegs).contains n).getD 0)

/-- Limiter and release values written outside their ranges while the limiter is enabled (R242), and lengths of enabled filter
selections outside theirs (R263). -/
def State.rangeRules (s : State) (writes : List (Nat × Nat)) : Broken :=
  writes.filterMap fun w =>
    let bad (f : Field) (v : Nat) : Bool := f.clamp (f.of (BitVec.ofNat 32 v)) != f.of (BitVec.ofNat 32 v)
    let inst (r : Reg) : Option (List Nat) := if w.1 < r.base then none else splitIndex r.dims (w.1 - r.base)
    match inst R.OUTn_LIM, inst R.OUTn_REL, inst R.CNV_OUTn_LEN with
    | some ix, _, _ => some (s.on F.OUTn_LIM_EN ix && (bad F.OUTn_LIM_KNEE w.2 || bad F.OUTn_LIM_CEIL w.2), w.1)
    | none, some ix, _ => some (s.on F.OUTn_LIM_EN ix && bad F.OUTn_REL_RELEASE w.2, w.1)
    | none, none, some ix => some (s.hasCnv && s.on F.CNV_OUTn_SEL_EN ix && bad F.CNV_OUTn_LEN_LEN w.2, w.1)
    | none, none, none => none

/-! ## The whole validation -/

/-- Every rule of a configuration, as an image or as a state that a commit leads to at block `c`. `steps`: the pending commits and
the one that is judged. -/
def State.configRules (m s0 s : State) (hard : Bool) (steps : List PendStep) (c : Nat) : Broken :=
  State.streamRules m s steps c ++ s.queueRules ++ State.lineRules s0 s hard ++ s.inputRules ++ s.outputRules
    ++ s.xpRules s.xpUsed ++ s.cnvRules m.stage ++ State.rendererRules s0 s hard ++ s.coreRules hard ++ s.ringRules hard
    ++ s.pairRules

/-- The first rule that a list finds broken. -/
def Broken.first (l : Broken) : Option Nat := (l.find? fun e => e.1).map (·.2)

end Sys2Proof.Machine
end

