-- ==== Sys2Proof/Machine/Txn.lean ====
section
/-!
DEFINITION. Transactions (R411 to R418): slots, scopes, staging, commits with their validation and their blocks, one-write
commits of R235, and the groups of the persistence journal that wait to be appended (R379, R381).
-/

namespace Sys2Proof.Machine

/-! ## The persistence journal (R379, R381) -/

/-- The first 8 bytes of the running image's digest. -/
def State.digest8 (s : State) : List Byte := (List.range 2).flatMap fun i => leBytes 4 (s.rd F.BOOT_DIGESTi_V [i])

/-- Bytes of a group in flash: a 16-byte header, its records (a wrapped key takes the room of six), a 16-byte trailer
(log entry 27). -/
def JournalGroup.size (g : JournalGroup) : Nat := 32 + 8 * (g.recs.length + (if g.key.isSome then 6 else 0))

/-- The records that still fit in the journal: groups of another image are erased before the first group of this one. -/
def State.journalFree (s : State) : Nat :=
  let own := (s.boot.journal ++ s.boot.waiting).filter fun g => g.digest == s.digest8
  (1572864 - ((own.map JournalGroup.size).sum + 32)) / 8

/-- A group can be taken: fewer than 4 wait, and it fits. -/
def State.journalTakes (s : State) (g : JournalGroup) : Bool :=
  decide (s.boot.waiting.length < 4) && decide (g.size ≤ 32 + 8 * s.journalFree)

def State.showFree (s : State) : State := s.wr F.BOOT_PSTAT_FREE s.journalFree

/-- A group waits to be appended. -/
def State.queueGroup (s : State) (g : JournalGroup) : State :=
  { s with boot := { s.boot with waiting := s.boot.waiting ++ [g] } }

/-- The journal is erased once no group waits (R381). -/
def State.clearJournal (s : State) : State :=
  if s.boot.clear && s.boot.waiting.isEmpty then
    ({ s with boot := { s.boot with journal := [], clear := false } } : State).showFree
  else s

/-- PERSIST_DONE: the oldest waiting group is durable. -/
def State.persistDone (s : State) : State :=
  match s.boot.waiting with
  | [] => s
  | g :: rest =>
    let keep := s.boot.journal.filter fun j => j.digest == g.digest
    let s := { s with boot := { s.boot with waiting := rest, journal := keep ++ [g] } }
    ((s.showFree.count F.BOOT_CNT_PGROUPS_V).raise F.BOOT_EVT_PERSIST_DONE).clearJournal

/-! ## Slots and scopes (R411, R412) -/

def State.txnSlot (s : State) (i : Nat) : TxnSlot := Tab.get TxnSlot.init s.txn i

def State.setTxnSlot (s : State) (i : Nat) (x : TxnSlot) : State := { s with txn := Tab.set TxnSlot.init s.txn i x }

/-- 0 IDLE, 1 OPEN, 2 DOOMED, 3 VALIDATING, 4 PENDING. -/
def State.txnState (s : State) (i : Nat) : Nat := s.rd F.TXN_STAT_STATE [i]

/-- The transaction of a slot is running and belongs to the session of an access. -/
def State.txnOwn (s : State) (a : Access) : Bool :=
  let x := (s.txnSlot a.slot).access
  s.txnState a.slot != 0 && x.iface == a.iface && x.carriedHandle == a.carriedHandle

/-- The scope ranges of a slot: address and length in bytes. -/
def State.scopes (s : State) (i : Nat) : List (Nat × Nat) :=
  ((List.range 4).map fun k => (4 * s.rd F.TXN_SCOPEk_BASE_ADDR [k, i], 4 * s.rd F.TXN_SCOPEk_LEN_LEN [k, i])).filter
    fun e => e.2 != 0

def State.inScope (s : State) (i addr : Nat) : Bool := (s.scopes i).any fun e => within e.1 e.2 addr

/-- The memory windows that no scope may meet (R411). -/
def memWindows : List (Nat × Nat) :=
  (0x500000, 0x80000) :: (0x1000000, 0x1800000) :: (0x3C00000, 0x400000)
    :: (List.range 32).flatMap fun c => [(0x2800000 + 0x80000 * c, 0x10000), (0x2820000 + 0x80000 * c, 0x40000)]

def rangesMeet (a b : Nat × Nat) : Bool := decide (a.1 < b.1 + b.2) && decide (b.1 < a.1 + a.2)

/-- Entries of the staging journal in use (R413). -/
def State.journalUsed (s : State) : Nat :=
  (s.txn.map fun e => e.2.staged.length).sum + (s.commits.filter fun c => c.one).length

/-- An access by the session to its scope or its window (R416). -/
def State.txnTouch (s : State) (i : Nat) : State := s.setTxnSlot i { s.txnSlot i with last3 := s.upNow3 }

/-! ## Results (R417) -/

/-- Counts and events of a result. -/
def State.resultCounts (s : State) (result : Nat) : State :=
  if result == 0 then (s.count F.TXN_CNT_APPLIED_V).raise F.TXN_EVT_APPLIED
  else if result == 12 then s
  else
    let s := (s.count F.TXN_CNT_FAILED_V).raise F.TXN_EVT_FAIL
    if result == 10 then (s.count F.TXN_CNT_TIMEOUT_V).raise F.TXN_EVT_TIMEOUT else s

/-- A refusal that ends no transaction, or the report of one that ends. -/
def State.txnResult (s : State) (i result detail : Nat) : State :=
  ((s.wr F.TXN_STAT_RESULT result [i]).wr F.TXN_DETAIL_V detail [i]).resultCounts result

/-- The transaction of a slot ends. -/
def State.txnEnd (s : State) (i result detail : Nat) : State :=
  let a := (s.txnSlot i).access
  let s := (s.wr F.TXN_STAT_STATE 0 [i]).setTxnSlot i TxnSlot.init
  (s.txnResult i result detail).logAccess a 9 0 0 0 result

/-- A one-write commit ends (R417). -/
def State.oneEnd (s : State) (c : Commit) (result : Nat) : State :=
  let addr := (c.writes.headD (0, 0)).1
  let s := s.wr F.TXN_GSTAT_ONE_RESULT result
  let s := if result == 0 then s else s.wr F.TXN_ONE_ADDR_ADDR (addr / 4)
  (s.resultCounts result).logAccess c.access 9 0 0 0 result

/-- An open transaction is dropped with a result; a validating or pending one goes on (R408, R416, R437). -/
def State.txnDrop (s : State) (i result : Nat) : State :=
  if s.txnState i == 1 || s.txnState i == 2 then s.txnEnd i result 0 else s

/-- A transaction is doomed: the first cause stands (R412, R413). -/
def State.txnDoom (s : State) (i cause addr : Nat) : State :=
  if s.txnState i == 1 then
    (s.wr F.TXN_STAT_STATE 2 [i]).setTxnSlot i { s.txnSlot i with doom := cause, doomAddr := addr }
  else s

/-! ## BEGIN, COMMIT, ROLLBACK (R411, R415, R416) -/

/-- The code of a BEGIN: 0 opens a transaction (log entry 28 for the order). -/
def State.beginCode (s : State) (i : Nat) : Nat :=
  let mine := s.scopes i
  if s.txnState i != 0 then 2
  else if mine.isEmpty || mine.any (fun r => memWindows.any (rangesMeet r)) then 4
  else if (List.range 8).any fun j => j != i && s.txnState j != 0 && (s.scopes j).any fun r => mine.any (rangesMeet r) then 1
  else 0

/-- BEGIN. -/
def State.txnBegin (s : State) (a : Access) : State :=
  let i := a.slot
  let code := s.beginCode i
  let s := s.logAccess a 7 0 0 0 code
  if code != 0 then s.txnResult i code 0
  else (s.wr F.TXN_STAT_STATE 1 [i]).setTxnSlot i { access := a, last3 := s.upNow3 }

/-- COMMIT. -/
def State.txnCommit (s : State) (a : Access) : State :=
  let i := a.slot
  let x := s.txnSlot i
  match s.txnState i with
  | 0 => s.txnResult i 3 0
  | 1 =>
    let persist := s.on F.TXN_CTRL_PERSIST [i]
    if persist && decide (s.roleOf a < 2) then s.txnEnd i 5 0
    else
      let c : Commit := { slot := some i, access := x.access, writes := x.staged, persist := persist }
      { s.wr F.TXN_STAT_STATE 3 [i] with commits := s.commits ++ [c] }
  | 2 => s.txnEnd i x.doom x.doomAddr
  | _ => s

/-- ROLLBACK. -/
def State.txnRollback (s : State) (a : Access) : State :=
  let i := a.slot
  match s.txnState i with
  | 0 => s.txnResult i 3 0
  | 1 => s.txnEnd i 12 0
  | 2 => s.txnEnd i 12 0
  | _ => s

/-- The actions of a word written to TXN_CTRL: more than one of them start none (R416). -/
def State.txnControl (s : State) (a : Access) (v : Nat) : State :=
  match v / 2 ^ 29 % 8 with
  | 4 => s.txnBegin a
  | 2 => s.txnCommit a
  | 1 => s.txnRollback a
  | _ => s

/-- TXN_TIMEOUT: no access for TXN_CFG.TIMEOUT (R416). -/
def State.txnTimeout (s : State) (i : Nat) : State :=
  if (s.txnState i == 1 || s.txnState i == 2) && s.elapsed (s.txnSlot i).last3 (s.rd F.TXN_CFG_TIMEOUT * 300000000) then
    s.txnEnd i 10 0
  else s

/-! ## Validation (R415) -/

/-- The state that writes lead to, as far as registers go. -/
def State.withWrites (s : State) (writes : List (Nat × Nat)) : State := writes.foldl (fun s w => s.storeAt w.1 w.2) s

/-- The pending commits as steps, from the registers of `s` on. -/
def State.pendSteps (s : State) : List Commit → List PendStep
  | [] => []
  | c :: rest =>
    let t := s.withWrites c.writes
    { block := c.block.getD 0, before := s, after := t, addrs := c.writes.map (·.1) } :: State.pendSteps t rest

/-- A unit holds its safe-loaded registers from the mirror: it is a standby or becomes one (R352, log entry 29). -/
def State.mirrored (s : State) : Bool := s.paired && (s.redState == 1 || s.redState == 2)

/-- The result of a validation that ends now, with its detail; 0: it passes. -/
def State.judgeCommit (s : State) (c : Commit) : Nat × Nat :=
  let pend := s.commits.filter fun d => d.block.isSome
  let s0 := s.withWrites (pend.flatMap (·.writes))
  let s1 := s0.withWrites c.writes
  let addrs := c.writes.map (·.1)
  let at' := s.time.block + 2
  if s.mirrored then (9, 0)
  else if c.persist && !s.journalTakes { digest := s.digest8, recs := c.writes } then (8, 0)
  else
    let steps := s.pendSteps pend
    match Broken.first (State.configRules s s0 s1 false (steps ++ [{ block := at', before := s0, after := s1, addrs := addrs }]) at'
        ++ State.fadeRules s s0 s1 addrs steps at' ++ s.targetRules steps addrs at' ++ s1.rangeRules c.writes) with
    | none => (0, 0)
    | some d => (7, if addrs.contains d then d else 0)

/-- The oldest commit that is validated passes, for block `b`. -/
def passFirst (b : Nat) : List Commit → List Commit
  | [] => []
  | c :: rest => if c.block.isNone then { c with block := some b } :: rest else c :: passFirst b rest

/-- VALIDATION_PASS: the validation of the oldest commit that has not passed ends in this block. -/
def State.validationEnds (s : State) : State :=
  match s.commits.find? fun c => c.block.isNone with
  | none => s
  | some c =>
    let at' := s.time.block + 2
    let (result, detail) := s.judgeCommit c
    if result == 0 then
      let s := { s with commits := passFirst at' s.commits }
      let s := match c.slot with
        | some i =>
          let s := (s.wr F.TXN_CBLOCK_LO_V (at' % 2 ^ 32) [i]).wr F.TXN_CBLOCK_HI_V (at' / 2 ^ 32) [i]
          s.wr F.TXN_STAT_STATE 4 [i]
        | none => s
      s.logAccess c.access 8 0 0 (at' % 2 ^ 32) 0
    else
      let s := { s with commits := s.commits.erase c }
      match c.slot with
      | some i => s.txnEnd i result detail
      | none => s.oneEnd c result

/-- A write to a safe-loaded register outside any transaction (R235, R413). -/
def State.oneWrite (s : State) (a : Access) (addr v : Nat) : State :=
  let c : Commit := { slot := none, access := a, writes := [(addr, v)], one := true }
  if 4096 ≤ s.journalUsed then s.oneEnd c 6 else { s with commits := s.commits ++ [c] }

/-! ## The commit block (R236, R415) -/

/-- A commit has applied: it reports, and a persisting one waits for the journal. -/
def State.commitDone (s : State) (c : Commit) : State :=
  let s := if c.persist then s.queueGroup { digest := s.digest8, recs := c.writes } else s
  match c.slot with
  | some i => s.txnEnd i 0 0
  | none => if c.one then s.oneEnd c 0 else s

/-- An active keeps the commit records that it applies before the standby has acknowledged them (R351, log entry 178). -/
def State.keepUnacked (s : State) (due : List Commit) : State :=
  if !s.paired || s.redState != 3 then s
  else
    let missed := due.filterMap fun c => match c.block with
      | some b => if s.pair.acked.contains (b, c.writes) then none else some (b, c.writes)
      | none => none
    { s with pair := { s.pair with unacked := s.pair.unacked ++ missed } }

/-- Step 2 of R21: all commits due on block `n` apply in one swap. -/
def State.commitsApply (s : State) (n : Nat) : State :=
  let isDue (c : Commit) : Bool := match c.block with | some b => decide (b ≤ n) | none => false
  let due := s.commits.filter isDue
  if due.isEmpty then s
  else
    let s := ({ s with commits := s.commits.filter fun c => !isDue c } : State).keepUnacked due
    let s := s.applyWrites (due.flatMap (·.writes))
    let s := ((s.wr F.MIX_SL_BLOCK_LO_V (n % 2 ^ 32)).wr F.MIX_SL_BLOCK_HI_V (n / 2 ^ 32)).count F.MIX_CNT_SWAPS_V
    due.foldl State.commitDone (s.raise F.MIX_EVT_SWAP)

/-- The filters that pending commits select (R258). -/
def State.pendingFilters (s : State) : List Filter :=
  let pend := (s.commits.filter fun c => c.block.isSome).flatMap (·.writes)
  let t := s.withWrites pend
  (touched (pend.map (·.1)) [R.CNV_OUTn_SEL, R.CNV_OUTn_LEN]).filterMap t.selection

/-- The filters that protect their cells (R258). -/
def State.protectedFilters (s : State) : List Filter := s.usedFilters ++ s.pendingFilters

end Sys2Proof.Machine
end

