-- ==== Sys2Proof/Machine/Sec.lean ====
section
/-!
DEFINITION. The security unit: opening and closing host sessions (R403 to R408), loading keys (R409, R410), the lifecycle
and image keys (R419 to R423), and the end of test access (R442).
-/

namespace Sys2Proof.Machine

/-! ## Register words as bytes (R405) -/

/-- The bytes of a row of registers: bytes 4i to 4i + 3 in register i, byte 4i in bits [7:0]. -/
def State.regBytes (s : State) (r : Reg) (n : Nat) (ix : Nat → List Nat) : List Byte :=
  (List.range n).flatMap fun i => leBytes 4 (s.word r (ix i)).toNat

/-- Puts bytes into a row of registers. -/
def State.setRegBytes (s : State) (r : Reg) (n : Nat) (ix : Nat → List Nat) (bs : List Byte) : State :=
  (List.range n).foldl (fun s i => s.setWord r (BitVec.ofNat 32 (ofLe ((bs.drop (4 * i)).take 4))) (ix i)) s

/-! ## Test access (R442) -/

/-- The TST controls. -/
def tstControls : List Reg := [R.TST_TSDLY, R.TST_FRMA, R.TST_FRMB, R.TST_QFULL, R.TST_FCHOLD, R.TST_HOP, R.TST_DRAM, R.TST_JIT]

/-- Every TST control returns to its reset value, CLEARED is raised and one entry logged. -/
def State.tstClear (s : State) : State :=
  let s := tstControls.foldl (fun s r => s.setWord r (r.resetAt [])) s
  let s := { s with tst := { s.tst with n := [] } }
  (s.raise F.TST_EVT_CLEARED).logDevice 12 0 0 0 0

/-- An open session has test access. -/
def State.tstSessions (s : State) : Bool :=
  s.sec.ses.any fun e => s.rd F.SEC_OPEN_STAT_STATE [e.1] == 2 && s.testRole e.2.role e.2.unlock

/-! ## Sessions -/

def State.secState (s : State) (i : Nat) : Nat := s.rd F.SEC_OPEN_STAT_STATE [i]

def State.setSes (s : State) (i : Nat) (x : Option Session) : State :=
  { s with sec := { s.sec with ses := Tab.put s.sec.ses i x } }

/-- The slot is bound to another interface than the access uses. -/
def State.otherIface (s : State) (a : Access) : Bool :=
  s.secState a.slot != 0 && (match s.sec.ses.lookup a.slot with | some x => x.iface != a.iface | none => false)

/-- The keys a session of a role may open with (R403). -/
def State.hostKeys (s : State) (role : Nat) : List (List Byte) := if role == 3 then [s.sec.maker] else s.roleKeys role

/-- A refused opening: ERR, OPEN_FAIL and an entry (R406). -/
def State.openFail (s : State) (a : Access) (err : Nat) : State :=
  let role := s.rd F.SEC_OPEN_CTRL_ROLE [a.slot]
  ((s.wr F.SEC_OPEN_STAT_ERR err [a.slot]).raise F.SEC_EVT_OPEN_FAIL).logPut 5 role a.slot (Iface.code a.iface) 0 0 0 0 err

/-- The refusal of a REQ, 0 if none (R406). -/
def State.reqError (s : State) (a : Access) : Nat :=
  let role := s.rd F.SEC_OPEN_CTRL_ROLE [a.slot]
  let unlock := s.on F.SEC_OPEN_CTRL_UNLOCK [a.slot]
  if (s.sec.locked.lookup (Iface.code a.iface)).isSome then 4
  else if s.otherIface a then 5
  else if s.secState a.slot == 2 then 8
  else if role == 0 || (unlock && role != 3) then 7
  else if role == 3 && s.lifecycle == 7 && (!unlock || s.sec.unlocks == 0) then 6
  else if (s.hostKeys role).isEmpty then 2
  else 0

/-- REQ: step 1 of R404. -/
def State.openReq (s : State) (a : Access) : State :=
  let err := s.reqError a
  if err != 0 then s.openFail a err
  else
    let x : Session := { iface := a.iface, role := s.rd F.SEC_OPEN_CTRL_ROLE [a.slot],
                         unlock := s.on F.SEC_OPEN_CTRL_UNLOCK [a.slot], step := 2 }
    ((s.setSes a.slot (some x)).wr F.SEC_OPEN_STAT_ERR 0 [a.slot]).wr F.SEC_OPEN_STAT_PEND 1 [a.slot]

/-- CHALLENGE_DRAWN: step 2 ends. -/
def State.challengeDrawn (s : State) (i : Nat) : State :=
  match s.sec.ses.lookup i with
  | none => s
  | some x =>
    if x.step != 2 then s
    else
      let s := s.setRegBytes R.SEC_OPEN_DNONCEi 4 (fun k => [k, i]) (s.random16 2)
      let s := (s.wr F.SEC_OPEN_STAT_STATE 1 [i]).wr F.SEC_OPEN_STAT_IFACE (Iface.code x.iface) [i]
      (s.wr F.SEC_OPEN_STAT_PEND 0 [i]).setSes i (some { x with step := 0, drawn3 := s.upNow3 })

/-- EXPIRED: a challenge stands for 1 s without a PROVE (R404). -/
def State.challengeExpired (s : State) (i : Nat) : State :=
  match s.sec.ses.lookup i with
  | none => s
  | some x =>
    if s.secState i == 1 && x.step == 0 && s.elapsed x.drawn3 3000000000 then
      ((s.wr F.SEC_OPEN_STAT_STATE 0 [i]).wr F.SEC_OPEN_STAT_ERR 3 [i]).setSes i none
    else s

/-- The MAC of R405 that a key gives. -/
def State.openMac (s : State) (i : Nat) (x : Session) (key : List Byte) : List Byte :=
  let dn := s.regBytes R.SEC_OPEN_DNONCEi 4 fun k => [k, i]
  let cn := s.regBytes R.SEC_OPEN_CNONCEi 4 fun k => [k, i]
  hmacSha256 key (dn ++ cn ++ beBytes 1 x.role ++ beBytes 1 i ++ beBytes 1 (Iface.code x.iface)
    ++ beBytes 1 (if x.unlock then 1 else 0))

/-- PROVE: step 3 of R404; a refusal returns a slot challenged on this interface to FREE (R406). While step 4 runs the slot reads
CHALLENGED, so a PROVE in time starts the check again; while step 2 runs no challenge stands (DEDUCED, log entry 183). -/
def State.openProve (s : State) (a : Access) : State :=
  let i := a.slot
  let x := (s.sec.ses.lookup i).getD { iface := a.iface, role := 0, unlock := false }
  let live := s.secState i == 1 && x.step != 2 && decide (s.time.up3 ≤ x.drawn3 + 3000000000)
  let err := if s.otherIface a then 5 else if !live then 3 else if (s.hostKeys x.role).isEmpty then 2 else 0
  if err == 0 then
    let mac := s.regBytes R.SEC_OPEN_MACi 8 fun k => [k, i]
    let key := ((s.hostKeys x.role).find? fun k => s.openMac i x k == mac).getD []
    ((s.setSes i (some { x with step := 4, openKey := key })).wr F.SEC_OPEN_STAT_ERR 0 [i]).wr F.SEC_OPEN_STAT_PEND 1 [i]
  else
    let s := s.openFail a err
    if err != 5 && s.secState i == 1 then (s.wr F.SEC_OPEN_STAT_STATE 0 [i]).setSes i none else s

/-- An AUTH refusal counts towards the lock-out of its interface (R406). -/
def State.authRefused (s : State) (i : Iface) : State :=
  let c := Iface.code i
  let now := s.upNow3
  let l := ((Tab.get [] s.sec.fails c).filter fun t => decide (now < t + 30000000000)) ++ [now]
  let locked := if 4 ≤ l.length then Tab.put s.sec.locked c (some now) else s.sec.locked
  { s with sec := { s.sec with fails := Tab.set [] s.sec.fails c l, locked := locked } }

/-- MAC_CHECKED: step 4 ends; an opening with UNLOCK burns a fuse, whatever the check gives (R404, R407). -/
def State.macChecked (s : State) (i : Nat) : State :=
  match s.sec.ses.lookup i with
  | none => s
  | some x =>
    if x.step != 4 then s
    else
      let a : Access := { iface := x.iface, slot := i }
      let burn := x.role == 3 && x.unlock && s.lifecycle == 7
      let s := if burn then { s with sec := { s.sec with unlocks := s.sec.unlocks - 1 } } else s
      let s := s.wr F.SEC_OPEN_STAT_PEND 0 [i]
      if x.openKey.isEmpty then
        (((s.openFail a 1).wr F.SEC_OPEN_STAT_STATE 0 [i]).setSes i none).authRefused x.iface
      else
        let handle := 1 + s.draw .handle [1] % (2 ^ 32 - 1)
        let dn := s.regBytes R.SEC_OPEN_DNONCEi 4 fun k => [k, i]
        let cn := s.regBytes R.SEC_OPEN_CNONCEi 4 fun k => [k, i]
        let s := s.setRegBytes R.SEC_OPEN_PROOFi 8 (fun k => [k, i]) (hmacSha256 x.openKey (cn ++ dn ++ beBytes 4 handle))
        let s := (s.wr F.SEC_OPEN_HANDLE_V handle [i]).wr F.SEC_OPEN_STAT_STATE 2 [i]
        let s := (s.wr F.SEC_OPEN_STAT_ROLE x.role [i]).setSes i (some { x with step := 0 })
        (s.raise F.SEC_EVT_OPEN).logAccess a 4 0 0 0 0

/-- LOCKOUT_END (R406). -/
def State.lockoutEnd (s : State) (i : Iface) : State :=
  match s.sec.locked.lookup (Iface.code i) with
  | some t =>
    if s.elapsed t 30000000000 then { s with sec := { s.sec with locked := Tab.put s.sec.locked (Iface.code i) none } } else s
  | none => s

/-- The session of a slot closes: its open transaction is rolled back (R408), and test access may end with it (R442). -/
def State.sessionCloses (s : State) (i : Nat) : State :=
  match s.sec.ses.lookup i with
  | none => s
  | some x =>
    if s.secState i != 2 then s
    else
      let before := s.tstSessions
      let a : Access := { iface := x.iface, slot := i }
      let s := if s.txnOwn a then s.txnDrop i 11 else s
      let s := s.logAccess a 6 0 0 0 0
      let s := (s.wr F.SEC_OPEN_STAT_STATE 0 [i]).wr F.SEC_OPEN_STAT_ROLE 0 [i]
      let s := (s.setSes i none).raise F.SEC_EVT_CLOSE
      if before && !s.tstSessions then s.tstClear else s

/-- CLOSE by its own slot on its own interface. -/
def State.closeOwn (s : State) (a : Access) : State := if (s.sessionOf a).isSome then s.sessionCloses a.slot else s

/-- The actions of a word written to SEC_OPEN_CTRL, whose RW fields stand already. -/
def State.openControl (s : State) (a : Access) (v : Nat) : State :=
  let s := if v / 2 ^ 31 % 2 = 1 then s.openReq a else s
  let s := if v / 2 ^ 30 % 2 = 1 then s.openProve a else s
  if v / 2 ^ 29 % 2 = 1 then s.closeOwn a else s

/-- The sessions of the PCIe interface close: link down, hot reset or Function Level Reset (R391, R408). -/
def State.pcieCloses (s : State) : State :=
  (List.range 8).foldl (fun s i =>
    match s.sec.ses.lookup i with
    | some x => if x.iface == .pcie then
        (if s.secState i == 2 then s.sessionCloses i
          else ((s.wr F.SEC_OPEN_STAT_STATE 0 [i]).wr F.SEC_OPEN_STAT_PEND 0 [i]).setSes i none)
      else s
    | none => s) s

/-! ## Keys (R409, R410) -/

/-- The key that the wrap in SEC_KLOAD_W0 to W9 holds under the session's key. -/
def State.unwrapped (s : State) (key : List Byte) : Option (List Byte) :=
  keyUnwrap key (s.regBytes R.SEC_KLOAD_Wi 10 fun k => [k])

/-- KEY_LOAD. -/
def State.keyLoad (s : State) (a : Access) : State :=
  let role := s.rd F.SEC_KLOAD_CTRL_ROLE
  let slot := s.rd F.SEC_KLOAD_CTRL_SLOT
  let own := match s.sessionOf a with | some x => x.openKey | none => []
  let key := s.unwrapped own
  let stored := match key with | some k => if k.all (· == 0) then [] else k | none => []
  let group : JournalGroup := { digest := s.digest8, key := some (role, slot, stored) }
  let persist := s.on F.SEC_KLOAD_CTRL_PERSIST
  let err := if role == 0 || role == 3 || decide (s.roleOf a ≤ role) then 1
    else if own.isEmpty || key.isNone then 2
    else if persist && !s.journalTakes group then 3
    else 0
  let s := (s.wr F.SEC_KLOAD_STAT_ERR err).logAccess a 10 0 0 0 err
  if err != 0 then s
  else
    let s := { s with keys := Tab.set [] s.keys (2 * role + slot) stored }
    let s := if persist then s.queueGroup group else s
    s.raise F.SEC_EVT_KEY_LOADED

/-! ## Lifecycle and image keys (R419 to R423) -/

/-- A reset is requested with a cause (R427). -/
def State.askReset (s : State) (cause : Nat) : State :=
  let first := s.pwr.causes == 0
  { s with pwr := { s.pwr with causes := s.pwr.causes ||| 2 ^ cause, since3 := if first then s.upNow3 else s.pwr.since3 } }

/-- The maker key as written to SEC_PROV. -/
def State.provMaker (s : State) : List Byte := s.regBytes R.SEC_PROV_MKEYi 8 fun k => [k]

/-- A move to a lifecycle state is permitted (R420). -/
def State.lcPermits (s : State) (target : Nat) : Bool :=
  match s.lifecycle, target with
  | 1, 3 => s.provMaker.any (· != 0) && !s.sec.provHash.isEmpty
  | 3, 7 => true
  | 3, 15 => true
  | 7, 15 => true
  | _, _ => false

/-- What a permitted move does before and while its bits are burned. -/
def State.lcMove (s : State) (target : Nat) : State :=
  let s := if target == 3 then
      let hash (k : Nat) : Nat × List Byte := (k, s.regBytes R.SEC_PROV_KHASHk_i 8 fun i => [k, i])
      { s with sec := { s.sec with maker := s.provMaker, hashes := Tab.merge s.sec.hashes (s.sec.provHash.map hash),
                                   revoked := s.sec.revoked ||| s.rd F.SEC_PROV_REVOKE_KEY } }
    else if target == 15 then
      { s with keys := [2, 3, 4, 5].foldl (fun t k => Tab.set [] t k []) s.keys,
               boot := { s.boot with journal := s.boot.journal.filter fun g => g.key.isNone
                                     waiting := s.boot.waiting.filter fun g => g.key.isNone } }
    else s
  { s with sec := { s.sec with fuses := s.sec.fuses ||| target } }

/-- LIFECYCLE_GO, with CONFIRM and TARGET in their registers. -/
def State.lifecycleGo (s : State) (a : Access) : State :=
  let target := s.rd F.SEC_LC_CTRL_TARGET
  if s.rd F.SEC_LC_CONFIRM_V == 0x4C430000 + target && s.lcPermits target then
    let s := ((s.lcMove target).wr F.SEC_LC_STAT_ERR 0).logAccess a 11 0 0 target 0
    s.tstClear.askReset 3
  else s.wr F.SEC_LC_STAT_ERR 1

/-- REVOKE: burns bits in PROVISIONED, and in FIELD for an unlocked session; in BLANK they wait for the move (R420, R423). -/
def State.revoke (s : State) (a : Access) (mask : Nat) : State :=
  let unlocked := match s.sessionOf a with | some x => x.unlock | none => false
  if s.lifecycle == 1 then s.wr F.SEC_PROV_REVOKE_KEY (s.rd F.SEC_PROV_REVOKE_KEY ||| mask)
  else if s.lifecycle == 3 || (s.lifecycle == 7 && unlocked) then
    ({ s with sec := { s.sec with revoked := s.sec.revoked ||| mask } } : State).logAccess a 11 R.SEC_PROV_REVOKE.base 0 mask 0
  else s

end Sys2Proof.Machine
end

