-- ==== Sys2Proof/Machine/Window.lean ====
section
/-!
DEFINITION. The memory windows of the device map that are no registers (R266, R280, R281, R243, R258, R387): the cores' program,
S and K memory and frames, the coefficient store, and the DRAM aperture.
-/

namespace Sys2Proof.Machine

/-- A place in a memory window: a core's word memory (0 program, 1 S, 2 K) or frames (0 input, 1 passed on) by byte offset, a
coefficient bank, DRAM through the aperture. -/
inductive Window where
  | core (c mem off : Nat)
  | frames (c kind off : Nat)
  | coef (bank off : Nat)
  | dram (off : Nat)
  deriving DecidableEq, Repr

/-- The window that an address lies in, whether or not this part has it. -/
def State.windowAt (s : State) (addr : Nat) : Option Window :=
  if within 0x1000000 0x1800000 addr then some (.coef ((addr - 0x1000000) / 0xC00000) ((addr - 0x1000000) % 0xC00000))
  else if within 0x2800000 0x1000000 addr then
    let c := (addr - 0x2800000) / 0x80000
    let off := (addr - 0x2800000) % 0x80000
    if off < 0x10000 then some (.core c 0 off)
    else if within 0x20000 0x20000 off then some (.core c 1 (off - 0x20000))
    else if within 0x40000 0x20000 off then some (.core c 2 (off - 0x40000))
    else if within 0x60000 0x8000 off then some (.frames c 0 (off - 0x60000))
    else if within 0x68000 0x8000 off then some (.frames c 1 (off - 0x68000))
    else none
  else if within 0x3C00000 0x400000 addr then some (.dram (s.rd F.FAB_APER_BASE * 0x400000 + (addr - 0x3C00000)))
  else none

/-- `n` bytes of a window exist on this part (R1, R20, R265, R388). -/
def State.windowThere (s : State) (w : Window) (n : Nat) : Bool :=
  match w with
  | .core c _ _ => decide (c < s.coreCount)
  | .frames c _ _ => decide (c < s.coreCount)
  | .coef _ off => s.hasCnv && decide (off + n ≤ 6 * s.tapPool)
  | .dram off => decide (off + n ≤ s.dramBytes)

/-- A word of a core's memory. -/
def LuvCore.memWord (x : LuvCore) (mem k : Nat) : Nat :=
  Tab.get 0 (if mem == 0 then x.prog else if mem == 1 then x.smem else x.kmem) k

/-- Replaces a word of a core's memory. -/
def LuvCore.setMemWord (x : LuvCore) (mem k v : Nat) : LuvCore :=
  if mem == 0 then { x with prog := Tab.set 0 x.prog k v }
  else if mem == 1 then { x with smem := Tab.set 0 x.smem k v }
  else { x with kmem := Tab.set 0 x.kmem k v }

/-- A word of the frames window: an input frame of the present block, or an output frame last passed on. -/
def State.frameWord (s : State) (c kind k : Nat) : Nat :=
  if kind == 0 then s.inputFrame c (k / 32) (k % 32) else Tab.get 0 (s.luv c).passed k

/-- One byte of a window. -/
def State.windowByte (s : State) (w : Window) : Byte :=
  let part (v off : Nat) : Byte := BitVec.ofNat 8 (v / 2 ^ (8 * (off % 4)))
  match w with
  | .core c mem off => part ((s.luv c).memWord mem (off / 4)) off
  | .frames c kind off => part (s.frameWord c kind (off / 4)) off
  | .coef bank off => Memory.read cellBlank s.cells (0xC00000 * bank + off)
  | .dram off => Memory.read dramBlank s.dram off

/-- The place `i` bytes further on. -/
def Window.plus : Window → Nat → Window
  | .core c m off, i => .core c m (off + i)
  | .frames c k off, i => .frames c k (off + i)
  | .coef b off, i => .coef b (off + i)
  | .dram off, i => .dram (off + i)

/-- Bytes of a window. -/
def State.windowRead (s : State) (w : Window) (n : Nat) : List Byte := (List.range n).map fun i => s.windowByte (w.plus i)

/-- A word with byte `i` replaced. -/
def withByte (v i : Nat) (b : Byte) : Nat := v - v / 2 ^ (8 * i) % 256 * 2 ^ (8 * i) + b.toNat * 2 ^ (8 * i)

/-- Writes one byte of a window; frames are read-only. -/
def State.windowPut (s : State) (w : Window) (b : Byte) : State :=
  match w with
  | .core c mem off =>
    let x := s.luv c
    s.setLuv c (x.setMemWord mem (off / 4) (withByte (x.memWord mem (off / 4)) (off % 4) b))
  | .frames _ _ _ => s
  | .coef bank off => s.cellWrite (0xC00000 * bank + off) [b]
  | .dram off => s.dramWrite off [b]

/-- Writes bytes of a window in ascending order. -/
def State.windowWrite (s : State) (w : Window) (bs : List Byte) : State :=
  bs.zipIdx.foldl (fun s e => s.windowPut (w.plus e.2) e.1) s

/-- A host access to a memory of a core in RUN may stall it for a cycle (R280). -/
def State.arbitrates (s : State) (w : Window) : State :=
  match w with
  | .core c _ _ => if s.luvState c == 1 then s.setLuv c { s.luv c with stalls := true } else s
  | _ => s

/-- Bytes that belong to protected cells (R258). -/
def State.cellsBusy (s : State) (bank off n : Nat) : Bool :=
  s.protectedFilters.any fun f => f.meets bank (off / 6) ((off + n - 1) / 6 + 1 - off / 6)

end Sys2Proof.Machine
end

