-- ==== Sys2Proof/Machine/Boot.lean ====
section
/-!
DEFINITION. Booting from flash (R363 to R380, R462, R463): headers and section tables, sections, the choice of a slot, the
replay of the journal, Safe Mute; and the flash commands of R382.
-/

namespace Sys2Proof.Machine

/-! ## The flash (R364) -/

/-- Bytes of a slot, and where a slot starts. -/
def State.slotSize (s : State) : Nat := (s.boot.flashBytes - 0x200000) / 2
def State.slotBase (s : State) (k : Nat) : Nat := 0x200000 + k * s.slotSize

/-- A little-endian field of a slot. -/
def State.slotField (s : State) (k off n : Nat) : Nat := ofLe (s.flashRead (s.slotBase k + off) n)

/-! ## The header and the section table (R365 to R370, R377) -/

/-- A slot is a candidate: MAGIC and FORMAT are correct (R367). -/
def State.candidate (s : State) (k : Nat) : Bool := s.slotField k 0 4 == 0x4F564931 && s.slotField k 4 2 == 1

def State.slotSections (s : State) (k : Nat) : Nat := s.slotField k 14 2

/-- A field of the header lies outside R365. -/
def State.headerBad (s : State) (k : Nat) : Bool :=
  let n := s.slotSections k
  let len := s.slotField k 28 4
  decide (1 < s.slotField k 6 2) || n == 0 || decide (256 < n) || decide (64 < s.slotField k 20 2)
    || decide (3 < s.slotField k 22 1) || s.slotField k 23 1 != 0 || len % 256 != 0 || decide (s.slotSize < len)
    || decide (len < 256 + 48 * n) || (s.flashRead (s.slotBase k + 128) 64).any (· != 0) || s.slotField k 61 3 != 0

/-- The image digest (R366). -/
def State.slotDigest (s : State) (k : Nat) : List Byte :=
  sha256 (s.flashRead (s.slotBase k) 192 ++ s.flashRead (s.slotBase k + 256) (48 * s.slotSections k))

/-- The signing key passes: any in BLANK, else one whose hash is fused and not revoked (R366, R423). -/
def State.slotKeyOk (s : State) (k : Nat) : Bool :=
  let ident := s.slotField k 22 1
  s.lifecycle == 1 || (s.sec.hashes.lookup ident == some (sha256 (s.flashRead (s.slotBase k + 64) 64))
    && s.sec.revoked / 2 ^ ident % 2 == 0)

/-- The signature passes (R366). -/
def State.slotSigOk (s : State) (k : Nat) : Bool :=
  let big (off : Nat) : Nat := ofBe (s.flashRead (s.slotBase k + off) 32)
  ecdsaVerify (big 64) (big 96) (s.slotDigest k) (big 192) (big 224)

/-- A section table entry. -/
structure Section where
  type : Nat
  flags : Nat
  zero : Nat
  offset : Nat
  length : Nat
  dest : Nat
  hash : List Byte
  deriving DecidableEq, Repr

def State.section (s : State) (k i : Nat) : Section :=
  let at' := 256 + 48 * i
  { type := s.slotField k at' 1, flags := s.slotField k (at' + 1) 1, zero := s.slotField k (at' + 2) 2,
    offset := s.slotField k (at' + 4) 4, length := s.slotField k (at' + 8) 4, dest := s.slotField k (at' + 12) 4,
    hash := s.flashRead (s.slotBase k + at' + 16) 32 }

/-- The first malformed entry from entry `i` on: `free` is where the entry before it ends (R369). -/
def tableBad (len : Nat) : List Section → Nat → Nat → Option Nat
  | [], _, _ => none
  | e :: rest, i, free =>
    let flags := if e.type == 4 then decide (1 < e.flags) else e.flags != 0
    if flags || e.zero != 0 || e.offset % 32 != 0 || decide (e.offset < free) || e.length == 0
        || decide (len < e.offset + e.length) then some i
    else tableBad len rest (i + 1) (e.offset + e.length)

/-- TYPE or DEST is invalid: a type that R370 does not give, or REGS or KEYS with a DEST. -/
def Section.invalid (e : Section) : Bool := e.type == 0 || decide (6 < e.type) || ((e.type == 1 || e.type == 6) && e.dest != 0)

/-- CAPS_REQ is met by SYS_CAPS (R377). -/
def capsMet (req caps : Nat) : Bool :=
  let get (f : Field) (w : Nat) : Nat := f.of (BitVec.ofNat 32 w)
  [F.SYS_CAPS_OUT_LOG2, F.SYS_CAPS_OBJ_LOG2, F.SYS_CAPS_CORES_M1, F.SYS_CAPS_RED_SIZE, F.SYS_CAPS_CAS_SIZE,
   F.SYS_CAPS_CNV_SIZE, F.SYS_CAPS_RED_PRES, F.SYS_CAPS_CAS_PRES, F.SYS_CAPS_CNV_PRES].all fun f => decide (get f req ≤ get f caps)

/-! ## Loading (R370 to R372) -/

/-- Why a slot fails: cause, section, record (R375, R463). -/
abbrev BootFail := Nat × Nat × Nat

/-- What loading builds: the state, the addresses written with their values, and the keys held until step 9 (role, slot, wrapped
key, section, record). -/
structure Loading where
  s : State
  writes : List (Nat × Nat) := []
  keys : List (Nat × Nat × List Byte × Nat × Nat) := []

/-- The register at an address, its shared copies at their one place. -/
def RegEntry.home (e : RegEntry) (ix : List Nat) : List Nat := if e.attrs.contains .shared then [] else ix

/-- One write of the boot engine with the rights of an installer (R371): refused with SECTION or ABSENT. A location that is reserved
inside the window of an absent unit is both; the model answers SECTION (DESIGN CHOICE, log entry 164). A record that enables the
ring reference on a part without a ring names an absent resource (R34). An action bit of the register starts nothing (log entry
30). -/
def Loading.write (l : Loading) (addr v : Nat) : Except Nat Loading :=
  let s := l.s
  match findReg addr 0 with
  | some (e, ix) =>
    if !s.present e ix then .error 11
    else
      let w := BitVec.ofNat 32 v
      let old := s.word e.reg (e.home ix)
      if e.fields.any fun f => f.role == .m && (f.acc == .wo || f.of w != f.of old) then .error 8
      else if addr == R.CLK_REFn_CFG.key [4] && F.CLK_REFn_CFG_EN.of w == 1 && !s.hasCas then .error 11
      else .ok { l with s := s.storeReg e (e.home ix) v true, writes := l.writes ++ [(addr, v)] }
  | none =>
    match s.windowAt addr with
    | some w => if addr % 4 != 0 then .error 8 else if s.windowThere w 4 then .ok { l with s := s.windowWrite w (leBytes 4 v) }
      else .error 11
    | none => .error 8

/-- Records of a REGS section, or of a group. -/
def Loading.records (l : Loading) : List (Nat × Nat) → Nat → Except (Nat × Nat) Loading
  | [], _ => .ok l
  | (a, v) :: rest, i =>
    match l.write a v with
    | .error c => .error (c, i)
    | .ok l => l.records rest (i + 1)

/-- The records of a REGS body. -/
def bodyRecords (body : List Byte) : List (Nat × Nat) :=
  (List.range (body.length / 8)).map fun i => (ofLe ((body.drop (8 * i)).take 4), ofLe ((body.drop (8 * i + 4)).take 4))

/-- TABLE: bytes copied into one memory window: S or K memory, region table, grid, crosspoint store, coefficient store. -/
def Loading.table (l : Loading) (dest : Nat) (body : List Byte) : Except Nat Loading :=
  let inside (base size : Nat) : Bool := decide (base ≤ dest) && decide (dest + body.length ≤ base + size)
  let words := (List.range (body.length / 4)).map fun i => (dest + 4 * i, ofLe ((body.drop (4 * i)).take 4))
  if dest % 4 != 0 then .error 8
  else if inside 0x500000 0x40000 || inside 0x540000 0x40000 || inside 0x800000 0x100000 then
    if body.length % 4 != 0 then .error 8
    else match l.records words 0 with
      | .ok l => .ok l
      | .error (c, _) => .error c
  else
    match l.s.windowAt dest with
    | some w =>
      let one := match w with
        | .core _ m off => m != 0 && decide (off + body.length ≤ 0x20000)
        | .coef _ off => decide (off + body.length ≤ 0xC00000)
        | _ => false
      if !one then .error 8 else if l.s.windowThere w body.length then .ok { l with s := l.s.windowWrite w body } else .error 11
    | none => .error 8

/-- COEF: a staging job whose source is the body (R259); it counts and reports as any job does. Cells at or above the bank's count
are absent (R20, R243). -/
def Loading.coef (l : Loading) (flags dest : Nat) (body : List Byte) : Except Nat Loading :=
  let taps := flags % 2 == 1
  let unit := if taps then 4 else 6
  let count := body.length / unit
  let bank := dest / 2 ^ 24 % 2
  let cell := dest % 2 ^ 21
  let j : StageJob := { taps := taps, bank := bank, cell := cell, count := count, src := 0 }
  if !l.s.hasCnv || decide (l.s.tapPool < cell + j.cells) then .error 11
  else if body.length % unit != 0 || cell % 16 != 0 || (taps && decide (16384 < count)) then .error 8
  else
    let values := (List.range count).map fun i => ofLe ((body.drop (unit * i)).take unit)
    let cells := if taps then cellsOfTaps (values.map (toSigned 24)) else values
    let s := l.s.cellWrite (cellAddr bank cell) (cells.flatMap (leBytes 6))
    .ok { l with s := (s.count F.CNV_CNT_STAGED_V).raise F.CNV_EVT_STAGE_DONE }

/-- KEYS: entries are held until step 9. -/
def Loading.keyEntries (l : Loading) (sect : Nat) (body : List Byte) : Except (Nat × Nat) Loading :=
  let entries := (List.range (body.length / 44)).map fun i => (i, (body.drop (44 * i)).take 44)
  let bad (b : List Byte) : Bool :=
    let role := ofLe (b.take 1)
    role == 0 || decide (2 < role) || decide (1 < ofLe ((b.drop 1).take 1)) || ofLe ((b.drop 2).take 2) != 0
  match entries.find? fun e => bad e.2 with
  | some e => .error (8, e.1)
  | none =>
    if body.length % 44 != 0 then .error (8, body.length / 44)
    else .ok { l with keys := l.keys ++ entries.map fun e =>
      (ofLe (e.2.take 1), ofLe ((e.2.drop 1).take 1), e.2.drop 4, sect, e.1) }

/-- One section, whose body has matched its hash. -/
def Loading.section (l : Loading) (i : Nat) (e : Section) (body : List Byte) : Except BootFail Loading :=
  let plain (r : Except Nat Loading) : Except BootFail Loading :=
    match r with | .ok l => .ok l | .error c => .error (c, i, 0)
  let counted (r : Except (Nat × Nat) Loading) : Except BootFail Loading :=
    match r with | .ok l => .ok l | .error (c, n) => .error (c, i, n)
  match e.type with
  | 1 => if body.length % 8 != 0 then .error (8, i, body.length / 8) else counted (l.records (bodyRecords body) 0)
  | 2 =>
    if decide (31 < e.dest) || body.length % 4 != 0 then .error (8, i, 0)
    else if l.s.coreCount ≤ e.dest then .error (11, i, 0)
    else if 65536 < body.length then .error (12, i, 0)
    else .ok { l with s := l.s.windowWrite (.core e.dest 0 0) body }
  | 3 => plain (l.table e.dest body)
  | 4 => plain (l.coef e.flags e.dest body)
  | 5 =>
    if l.s.dramBytes < 256 * e.dest + body.length then .error (8, i, 0)
    else .ok { l with s := l.s.dramWrite (256 * e.dest) body }
  | 6 => counted (l.keyEntries i body)
  | _ => .error (8, i, 0)

/-- The sections of a slot, in table order; a body that cannot be read or does not match its hash fails. A failure keeps DRAM
contents. -/
def Loading.sections (l : Loading) (k : Nat) : List (Nat × Section) → Except (BootFail × List Host.Cell) Loading
  | [] => .ok l
  | (i, e) :: rest =>
    let body := l.s.flashRead (l.s.slotBase k + e.offset) e.length
    if l.s.boot.badRead == some (k, i) then .error ((7, i, 0), l.s.dram)
    else if sha256 body != e.hash then .error ((6, i, 0), l.s.dram)
    else match l.section i e body with
      | .error f => .error (f, l.s.dram)
      | .ok l => l.sections k rest

/-! ## Step 8 and step 9 (R374, R380, R410) -/

/-- The journal's groups for the running image; a group with a refused record is skipped whole (R380). -/
def Loading.replay (l : Loading) : List JournalGroup → Loading
  | [] => l
  | g :: rest =>
    match l.records g.recs 0 with
    | .ok l => l.replay rest
    | .error _ => Loading.replay { l with s := (l.s.count F.BOOT_CNT_PSKIP_V).wr F.BOOT_STAT_PSKIP 1 } rest

/-- The keys of the image, unwrapped under the device key into the security unit; the section and entry of the first that fails. -/
def Loading.unwrapKeys (l : Loading) (key : List Byte) (s : State) : Except BootFail State :=
  l.keys.foldl (fun acc e =>
    match acc with
    | .error f => .error f
    | .ok s =>
      match keyUnwrap key e.2.2.1 with
      | none => .error (9, e.2.2.2.1, e.2.2.2.2)
      | some k => .ok { s with keys := Tab.set [] s.keys (2 * e.1 + e.2.1) (if k.all (· == 0) then [] else k) }) (.ok s)

/-- The device key in force (R422). -/
def State.deviceKey (s : State) : List Byte := beBytes 32 (Config.deviceKey (s.lifecycle == 15))

/-- Units take the settings loaded, and the configuration is judged. -/
def Loading.judged (l : Loading) : Option State :=
  let s := State.takeSettings l.s true (l.writes.map (·.1)) l.s
  if (Broken.first (State.configRules s s s true [] 0 ++ s.rangeRules l.writes)).isSome then none else some s

/-! ## One slot -/

/-- The network block of a slot (R365). -/
def State.slotNet (s : State) (k : Nat) : List Nat :=
  let big (off n : Nat) : Nat := ofBe (s.flashRead (s.slotBase k + 32 + off) n)
  [big 0 6, big 6 6, big 12 4, big 16 4, big 20 4, big 24 4, big 28 1]

/-- The audio engines start with a loaded configuration (step 10): RUN, the ring ports in LINKING, PTP ports in
INITIALIZING or FAULTY. -/
def State.enginesStart (s : State) (k : Nat) : State :=
  let s := (s.wr F.SYS_BOOTSTAT_STATE 1).wr F.SYS_BOOTSTAT_SLOT k
  let s := (s.wr F.BOOT_IMGVER_V (s.slotField k 16 4)).wr F.BOOT_GEN_V (s.slotField k 24 4)
  let s := s.setRegBytes R.BOOT_DIGESTi 8 (fun i => [i]) (s.slotDigest k)
  let s := { s with time := { s.time with armed := true } }
  let s := if s.on F.CAS_CFG_EN then
      { s.wr F.CAS_STAT_STATE 1 with ring := { s.ring with down := [s.dev, s.upLink] } }
    else s
  let s : State := [0, 1].foldl (fun (s : State) p => if s.linkUp p then s.ptpRestart p else s.ptpFaulty p) s
  s.showFree

/-- Audio has started: RB_AUTO raises the fused index to the running image's ROLLBACK, the reset is reported, and the boot is logged
(R368, R428, R424; DEDUCED, log entry 184: a ring member starts audio when it first holds ring time). -/
def State.audioStarts (s : State) : State :=
  let k := s.rd F.SYS_BOOTSTAT_SLOT
  let index := s.slotField k 20 2
  let s := if s.slotField k 6 2 == 1 && decide (s.sec.rollback < index) then
      { s with sec := { s.sec with rollback := index } }
    else s
  (s.raiseIf (s.rd F.SYS_RSTCAUSE_CAUSE != 1) F.SYS_EVT_RESET).logDevice 13 0 0 0 0

/-- The keys that key groups of the journal hold. -/
def State.journalKeys (groups : List JournalGroup) (t : State) : State :=
  groups.foldl (fun (t : State) g => match g.key with
    | some (role, slot, key) => { t with keys := Tab.set [] t.keys (2 * role + slot) key }
    | none => t) t

/-- Step 9 runs again without any group: JSKIP, beside what the replay reported (R380). -/
def State.skipJournal (t replayed : State) : State :=
  let t := t.wr F.BOOT_CNT_PSKIP_V (replayed.rd F.BOOT_CNT_PSKIP_V)
  (t.wr F.BOOT_STAT_PSKIP (replayed.rd F.BOOT_STAT_PSKIP)).wr F.BOOT_STAT_JSKIP 1

/-- Steps 5 to 9 for one slot: the state that starts, or why it fails and what DRAM holds then. -/
def State.trySlot (s : State) (k : Nat) : Except (BootFail × List Host.Cell) State :=
  let n := s.slotSections k
  let table := (List.range n).map fun i => s.section k i
  let fail (c sect rec_ : Nat) : Except (BootFail × List Host.Cell) State := .error ((c, sect, rec_), s.dram)
  if s.boot.badRead == some (k, 255) then fail 7 0xFF 0
  else if s.headerBad k then fail 2 0xFF 0
  else if !s.slotKeyOk k then fail 3 0xFF 0
  else if !s.slotSigOk k then fail 4 0xFF 0
  else if s.slotField k 20 2 < s.sec.rollback then fail 5 0xFF 0
  else
    match tableBad (s.slotField k 28 4) table 0 (256 + 48 * n) with
    | some i => fail 2 i 0
    | none =>
      match table.findIdx? Section.invalid with
      | some i => fail 8 i 0
      | none =>
        if !capsMet (s.slotField k 8 4) (partCaps s.part) then fail 10 0xFF 0
        else if s.rd F.SYS_DRAMSIZE_MIB == 0 || decide (s.rd F.SYS_DRAMSIZE_MIB < s.slotField k 12 2) then fail 13 0xFF 0
        else
          match Loading.sections { s := s } k (table.zipIdx.map fun e => (e.2, e.1)) with
          | .error f => .error f
          | .ok l =>
            let stop (c sect rec_ : Nat) : Except (BootFail × List Host.Cell) State := .error ((c, sect, rec_), l.s.dram)
            let starts (t : State) (keyed : State → State) : Except (BootFail × List Host.Cell) State :=
              match l.unwrapKeys s.deviceKey t with
              | .error (c, sect, rec_) => stop c sect rec_
              | .ok u => .ok ((keyed u).enginesStart k)
            let groups := s.boot.journal.filter fun g => g.digest == (s.slotDigest k).take 8
            let r := l.replay groups
            match r.judged with
            | some t => starts t (State.journalKeys groups)
            | none =>
              if groups.isEmpty then stop 12 0xFF 0
              else match l.judged with
                | some t => starts (t.skipJournal r.s) id
                | none => stop 12 0xFF 0

/-! ## The boot (R367, R374 to R376, R378) -/

/-- A failure of a slot is recorded (R375, R463). -/
def State.bootFailed (s : State) (k : Nat) (f : BootFail) : State :=
  let s := s.wr (if k == 0 then F.SYS_BOOTSTAT_CAUSE_A else F.SYS_BOOTSTAT_CAUSE_B) f.1
  (s.wr F.SYS_BOOTDETAIL_SECT f.2.1).wr F.SYS_BOOTDETAIL_REC f.2.2

/-- Safe Mute: ports and responders on with the addresses of the network block, PTP on port A, the ring in bypass (R378). -/
def State.safeMute (s : State) : State :=
  let s := s.wr F.SYS_BOOTSTAT_STATE 2
  let get (i : Nat) (other : Nat) : Nat := match s.boot.net with | some l => l.getD i 0 | none => other
  let s := [0, 1].foldl (fun s p =>
    let mac := get p (Config.otpMac p)
    let s := (s.wr F.NP_CFG_EN 1 [p]).wr F.NP_CFG_SPEED 1 [p]
    let s := (s.wr F.NP_MAC_LO_V (ofLe ((beBytes 6 mac).take 4)) [p]).wr F.NP_MAC_HI_V (ofLe ((beBytes 6 mac).drop 4)) [p]
    let s := (s.wr F.NP_IPV4_V (get (2 + 2 * p) (Config.otpIp p)) [p]).wr F.NP_IPMASK_V (get (3 + 2 * p) (Config.otpMask p)) [p]
    (s.wr F.NP_RESP_ARP_EN 1 [p]).wr F.NP_RESP_ICMP_EN 1 [p]) s
  let s := s.wr F.PTP_CTRL_MODE 1 [0]
  let s := if s.linkUp 0 then s.ptpRestart 0 else s.ptpFaulty 0
  let s := match s.boot.net with | some l => s.wr F.CAS_CFG_DEV (l.getD 6 0) | none => s
  (s.wr F.RED_STAT_CLAIM_OUT 0).wr F.CAS_STAT_BYPASS 1

/-- The slots in the order they are tried (R367). -/
def State.bootOrder (s : State) : List Nat :=
  let c := [0, 1].filter s.candidate
  let next := s.rd F.BOOT_CTRL_NEXT_SLOT
  let first := if (next == 1 || next == 2) && s.rd F.SYS_RSTCAUSE_CAUSE % 2 == 0 && c.contains (next - 1) then next - 1
    else if s.slotField 0 24 4 < s.slotField 1 24 4 then 1 else 0
  (c.filter (· == first)) ++ c.filter (· != first)

/-- Tries slots in order: a cause marked "Safe Mute" ends the boot, as does the last slot's failure. -/
def State.trySlots (s : State) : List Nat → State
  | [] => s.safeMute
  | k :: rest =>
    match (s.wr F.SYS_BOOTSTAT_SLOT k).trySlot k with
    | .ok t => t
    | .error (f, dram) =>
      let s := { (s.wr F.SYS_BOOTSTAT_SLOT k).bootFailed k f with dram := dram }
      if 10 ≤ f.1 then s.safeMute else s.trySlots rest

/-- The network block of the newest header that passes R366. -/
def State.newestNet (s : State) : Option (List Nat) :=
  let good := [0, 1].filter fun k =>
    s.candidate k && s.boot.badRead != some (k, 255) && !s.headerBad k && s.slotKeyOk k && s.slotSigOk k
  match good with
  | [] => none
  | [k] => some (s.slotNet k)
  | _ => some (s.slotNet (if s.slotField 0 24 4 < s.slotField 1 24 4 then 1 else 0))

/-- The state in which the boot engine begins with the slots: DRAM is found, the network block is known, and slots that are no
candidates have their cause. -/
def State.bootReady (s : State) (dram : DramFound) : State :=
  let s := s.wr F.SYS_DRAMSIZE_MIB (dram.getD 0)
  let s := { s with boot := { s.boot with net := s.newestNet } }
  ([0, 1].filter fun k => !s.candidate k).foldl (fun s k => s.bootFailed k (1, 0xFF, 0)) s

/-- BOOT_CTRL.NEXT_SLOT has been used (R367). -/
def State.nextUsed (s : State) : State :=
  if s.rd F.SYS_RSTCAUSE_CAUSE % 2 == 0 then s.wr F.BOOT_CTRL_NEXT_SLOT 0 else s

/-- The boot has started audio with a PTP reference LOCKED: the engine follows its master and the steward the reference (R29, log
entry 167). -/
def State.bootLocked (s : State) (k : BootLock) : State :=
  let p := k.port
  if !(s.running && decide (p < 2) && s.refOn p && s.rd F.PTP_CTRL_MODE [p] != 0 && s.linkUp p) then s
  else
    let s := { s with time := { s.time with local3 := 3 * k.now, timeSet := true } }
    let master : Foreign := { srcId := k.srcId, srcPort := k.srcPort, data := k.data, count := 2, last3 := s.time.up3, seq := k.seq }
    let s := (s.setPtpPort p { s.ptpPort p with
      parent := some (k.srcId, k.srcPort), gm := some k.data, foreign := [master], lastOfs := some 0 }).setPortState p 9
    let s := ((s.wr F.PTP_STAT_PD_VALID 1 [p]).ptpValidate p).raise F.PTP_EVT_ACQ [p]
    let s := (s.wr F.CLK_REFn_STAT_QUAL 3 [p]).setRef p
      { s.ref p with seen := true, passed := true, clean := s.wtrBlocks, phase := some 0 }
    let s := ((s.switchTo p).wr F.CLK_STAT_STATE 2).raise F.CLK_EVT_LOCK
    { s with clk := { s.clk with hist := [], lockTicks := 0 } }

/-- BOOT: what the boot engine makes of the flash, of which the read of one place may fail (log entry 182). A boot waits while POR or a critical temperature holds the device. -/
def State.bootNow (s : State) (dram : DramFound) (flashAnswers : Bool) (badRead : Option (Nat × Nat)) (lock : Option BootLock) :
    State :=
  if s.booted || s.pwr.held || s.pwr.off || s.pwr.causes != 0 then s
  else if !flashAnswers then
    let s := s.wr F.SYS_DRAMSIZE_MIB (dram.getD 0)
    let s := (s.bootFailed 0 (7, 0xFF, 0)).bootFailed 1 (7, 0xFF, 0)
    (s.wr F.SYS_BOOTSTAT_SLOT 1).safeMute
  else
    let s := ({ s with boot := { s.boot with badRead := badRead } } : State).bootReady dram
    let s := s.nextUsed.trySlots s.bootOrder
    let s := { s with boot := { s.boot with badRead := none } }
    match lock with
    | some k => s.bootLocked k
    | none => s

/-! ## Flash commands (R368, R381, R382) -/

/-- RB_ADVANCE: the fused index rises to the running image's ROLLBACK. -/
def State.rbAdvance (s : State) : State :=
  if !s.running then s
  else
    let index := s.slotField (s.rd F.SYS_BOOTSTAT_SLOT) 20 2
    { s with sec := { s.sec with rollback := max s.sec.rollback index } }

/-- JOURNAL_CLEAR. -/
def State.askClear (s : State) : State := ({ s with boot := { s.boot with clear := true } } : State).clearJournal

/-- The flash range of a command. -/
def State.fcmdRange (s : State) (cmd addr : Nat) : Nat × Nat :=
  (addr, if cmd ≤ 1 then 256 else if cmd == 2 then 65536 else s.slotSize)

/-- The error code of a flash command, 0: it starts. -/
def State.fcmdError (s : State) (cmd addr : Nat) : Nat :=
  let r := s.fcmdRange cmd addr
  let misaligned := if cmd ≤ 1 then addr % 256 != 0 else if cmd == 2 then addr % 65536 != 0
    else addr != s.slotBase 0 && addr != s.slotBase 1
  let own := s.rd F.SYS_BOOTSTAT_SLOT
  if s.on F.BOOT_FSTAT_BUSY then 2
  else if misaligned || decide (s.boot.flashBytes < addr + r.2) then 4
  else if decide (addr < 0x200000) || (s.running && rangesMeet r (s.slotBase own, s.slotSize)) then 1
  else 0

/-- BOOT_FCMD.GO; a command on a protected range is logged as denied by the write itself. -/
def State.fcmdGo (s : State) : State :=
  let cmd := s.rd F.BOOT_FCMD_CMD
  let addr := s.rd F.BOOT_FADDR_ADDR
  let err := s.fcmdError cmd addr
  let s := s.wr F.BOOT_FSTAT_ERR err
  if err == 0 then { s.wr F.BOOT_FSTAT_BUSY 1 with boot := { s.boot with cmd := some (cmd, addr) } }
  else s.raise F.BOOT_EVT_FCMD_ERR

/-- Bytes of the flash whose contents a failed command leaves open. -/
def State.flashOpen (s : State) (at' n : Nat) : State :=
  s.flashWrite at' ((List.range n).map fun (i : Nat) => BitVec.ofNat 8 (s.draw .readValue [6, (i : Int)]))

/-- What a flash command does when it ends (log entry 31 for the page of a program command). -/
def State.fcmdAct (s : State) (cmd addr : Nat) (error : Bool) : State :=
  let r := s.fcmdRange cmd addr
  if cmd == 0 then (if error then s else s.setRegBytes R.BOOT_FBUFi 64 (fun i => [i]) (s.flashRead addr 256))
  else if error then s.flashOpen addr r.2
  else if cmd == 1 then s.flashWrite addr (s.regBytes R.BOOT_FBUFi 64 fun i => [i])
  else { s with flash := s.flash.filter fun e => !within addr r.2 e.1 }

/-- FCMD_DONE. -/
def State.fcmdDone (s : State) (error : Bool) : State :=
  match s.boot.cmd with
  | none => s
  | some (cmd, addr) =>
    let s := s.fcmdAct cmd addr error
    let s := { s.wr F.BOOT_FSTAT_BUSY 0 with boot := { s.boot with cmd := none } }
    if error then (s.wr F.BOOT_FSTAT_ERR 3).raise F.BOOT_EVT_FCMD_ERR else s.raise F.BOOT_EVT_FCMD_DONE

end Sys2Proof.Machine
end

