-- ==== Sys2Proof/Machine/Power.lean ====
section
/-!
DEFINITION. Resets (R427 to R432), power states (R433 to R440), and the supply monitor and thermal sensor (R449, R457).
-/

namespace Sys2Proof.Machine

/-! ## What a reset and OFF keep (R440) -/

/-- Registers of the always-on domain: the LOG registers, BOOT_CTRL, SYS_WAKE and the counters of resets and wakes. -/
def alwaysOn : List Reg :=
  [R.LOG_CFG, R.LOG_STAT, R.LOG_EVT, R.LOG_EVTEN, R.LOG_CNT_LOST, R.LOG_CNT_FLUSHED, R.BOOT_CTRL, R.SYS_WAKE,
   R.SYS_CNT_RESETS, R.SYS_CNT_WAKES]

/-- Levels that other parts drive: the partner's pins and the supplies. -/
def State.keepLevels (s t : State) : State :=
  let t := t.wr F.RED_STAT_CLAIM_IN (s.rd F.RED_STAT_CLAIM_IN)
  (t.wr F.RED_STAT_FAULT_IN (s.rd F.RED_STAT_FAULT_IN)).wr F.SYS_SUPPLY_OUT (s.rd F.SYS_SUPPLY_OUT)

/-- What the device holds once everything but the always-on domain is reset: fuses and flash stay, the always-on domain
unless `por`, DRAM contents where `dram` (what undefined DRAM reads as: log entry 6). -/
def State.survivors (s : State) (por dram : Bool) : State :=
  let t : State := { State.reset with
    part := s.part, flash := s.flash, fresh := s.fresh, outbox := s.outbox, pending := s.pending
    boot := { flashBytes := s.boot.flashBytes, journal := s.boot.journal }
    sec := { lc := s.sec.fuses, fuses := s.sec.fuses, unlocks := s.sec.unlocks, rollback := s.sec.rollback,
             maker := s.sec.maker, hashes := s.sec.hashes, revoked := s.sec.revoked }
    pwr := { held := s.pwr.held, crit := s.pwr.crit }
    dram := if dram then s.dram else [] }
  let t := State.keepLevels s t
  if por then { t with log := { t.log with region := s.log.region } }
  else
    let t := alwaysOn.foldl (fun (t : State) r => t.setWord r (s.word r)) t
    { t.wr F.SYS_THERM_CRIT_SEEN (s.rd F.SYS_THERM_CRIT_SEEN) with log := s.log }

/-! ## Resets (R427 to R432) -/

/-- A reset waits for journal groups when its causes are SOFT and RING alone. -/
def State.resetWaits (s : State) : Bool := s.pwr.causes % 8 == 0

/-- A reset takes effect now: at once, or when no group waits, or 250 ms after the request (R429). -/
def State.resetDue (s : State) : Bool :=
  s.pwr.causes != 0 && !s.pwr.crit
    && (!s.resetWaits || s.boot.waiting.isEmpty || s.elapsed s.pwr.since3 750000000)

/-- Sessions close, and transactions and commits that are under way end with ABORTED (step 2 of R430). -/
def State.endSessions (s : State) : State :=
  let s := (List.range 8).foldl State.sessionCloses s
  let s := (List.range 8).foldl (fun s i => if s.txnState i == 0 then s else s.txnEnd i 11 0) s
  let ones := s.commits.filter (·.one)
  let s := ones.foldl (fun s c => s.oneEnd c 11) s
  { s with commits := [] }

/-- RESET: the steps 1 to 3 of R430; the boot follows. Resets other than POR count. -/
def State.resetNow (s : State) : State :=
  if !s.resetDue then s
  else
    let causes := s.pwr.causes
    let por := causes % 2 == 1
    let fromOff := s.pwr.off
    let t := (s.endSessions).survivors por (causes % 4 == 0)
    let t := t.wr F.SYS_RSTCAUSE_CAUSE causes
    let t := t.wr F.SYS_RSTCAUSE_FROM_OFF (boolNat (fromOff && !por))
    if por then t else t.count F.SYS_CNT_RESETS_V

/-- POR: a supply below its POR threshold asserts it at once; it is released when all have been above for 2 ms. -/
def State.porNow (s : State) (suppliesGood : Bool) : State :=
  if suppliesGood then { s with pwr := { s.pwr with held := false } }
  else
    let s := { s with pwr := { s.pwr with held := true } }
    s.askReset 0

/-- PIN: 48 consecutive low samples of SYS_RSTn (R428). -/
def State.pinNow (s : State) (lowSamples : Nat) : State := if 48 ≤ lowSamples then s.askReset 1 else s

/-- A write to SYS_RSTCTRL: SOFT with the key requests a reset, without it nothing happens. -/
def State.softAsked (s : State) (v : Nat) : State := if v % 2 = 1 ∧ v / 65536 = 0xA5C3 then s.askReset 3 else s

/-! ## Requests (R435) -/

/-- The refusal of a power request, 0 if none. -/
def State.pwrError (s : State) (req : Nat) : Nat :=
  if 2 ≤ req && s.paired && s.redState == 3 then 1
  else if s.on F.SYS_STAT_BUSY then 2
  else if (req == 1 && s.rd F.SYS_STAT_PWR == 2) || req == s.rd F.SYS_STAT_PWR then 3
  else 0

/-- STANDBY is left: step 1 of R438. The rest follows at the next boundary. -/
def State.standbyExit (s : State) : State :=
  let s := [0, 1].foldl (fun (s : State) p =>
    let x := s.netPort p
    let s := s.setNetPort p { x with cnt := [] }
    (List.range 40).foldl (fun s i => s.wr F.NP_CNTi_HI_V 0 [p, i]) s) s
  let core := s.core.map fun e => (e.1, { LuvCore.init with prog := e.2.prog })
  let s := { s with core := core, pwr := { s.pwr with goal := none, exit := true, wake := false } }
  s.wr F.SYS_STAT_BUSY 1

/-- A wake event: in STANDBY the exit begins; during the entry it waits for the entry's end (R438). -/
def State.wakeEvent (s : State) : State :=
  if s.rd F.SYS_STAT_PWR == 2 then (if s.pwr.exit || s.pwr.goal.isSome then s else s.standbyExit)
  else if s.pwr.goal == some 2 then { s with pwr := { s.pwr with wake := true } }
  else s

/-- An accepted or refused request of SYS_PWRCTRL.GO. -/
def State.pwrRequest (s : State) : State :=
  let req := s.rd F.SYS_PWRCTRL_REQ
  let err := s.pwrError req
  let s := s.wr F.SYS_STAT_PWR_ERR err
  if err != 0 then s.raise F.SYS_EVT_PWR_REFUSED
  else if s.rd F.SYS_STAT_PWR == 2 && req == 0 then s.wakeEvent
  else
    let mirror := decide (req ≤ 1) && s.paired && s.redState == 3
    let s := { s with pwr := { s.pwr with goal := some req, at' := if mirror then some (s.time.block + 2) else none } }
    s.wr F.SYS_STAT_BUSY 1

/-! ## Entry and exit (R436 to R439) -/

/-- The ring lanes go down: the ports stand in LINKING with both links down (R437). -/
def State.lanesDown (s : State) : State :=
  if !s.on F.CAS_CFG_EN then s
  else
    let s := { s with
      ring := { down := [s.dev, s.upLink], dnDelays := s.ring.dnDelays, upDelays := s.ring.upDelays }
      time := { s.time with ringHeld := false } }
    (s.wr F.CAS_STAT_STATE 1).ownLinks

/-- The stopped units of R433 halt: PTP engines with their time invalid, serial ports, cores, streams, converter channels;
queue contents and pending scene records go (R440). -/
def State.unitsHalt (s : State) : State :=
  let s := [0, 1].foldl (fun s p =>
    if s.rd F.PTP_CTRL_MODE [p] == 0 then s
    else (s.wr F.PTP_STAT_PORT_STATE 3 [p]).wr F.PTP_STAT_TIME_VALID 0 [p]) s
  let s := (List.range 32).foldl (fun s p => if s.on F.SAPp_CFG_EN [p] then s.sapStop p (s.sapQueue p) else s) s
  let s := (List.range s.coreCount).foldl (fun s c => s.wr F.LDCc_STAT_STATE 0 [c]) s
  let s := s.emptyHistories (fun _ => false) (fun _ => false)
  { s.lanesDown with
    brm := [], mdi := {}, conv := [], pipe := {}, str := {}
    scene := { s.scene with store := [], batches := [], hostDue := [] } }

/-- STANDBY is reached: steps 4 and 5 of R437. -/
def State.standbyReached (s : State) : State :=
  let s := (s.unitsHalt.wr F.SYS_STAT_PWR 2).wr F.SYS_STAT_BUSY 0
  let s := s.raise F.SYS_EVT_PWR_DONE
  let wake := s.pwr.wake
  let s := { s with pwr := { s.pwr with goal := none, down := false, ramp := 0, wake := false } }
  if wake then s.standbyExit else s

/-- OFF is reached: only the always-on domain keeps what it holds, SYS_RSTCAUSE among it (R439). -/
def State.offReached (s : State) : State :=
  let t := (s.endSessions).survivors false false
  let t := t.setWord R.SYS_RSTCAUSE (s.word R.SYS_RSTCAUSE)
  { t with pwr := { t.pwr with off := true } }

/-- The stopped units restart at the boundary that leaves STANDBY (steps 2 and 3 of R438). -/
def State.standbyLeft (s : State) : State :=
  let quiet := s.on F.SYS_WAKE_TARGET
  let s := (s.wr F.SYS_STAT_PWR (boolNat quiet)).wr F.SYS_STAT_BUSY 0
  let s := { s with pwr := { s.pwr with exit := false, ramp := if quiet then 2 else 3 } }
  let s := [0, 1].foldl State.ptpRestart s
  let s := s.rxEnabled.foldl (fun s n => s.rxApply true n) s
  let s := s.txEnabled.foldl (fun s n => s.txApply true n) s
  let s := if s.paired then s.beginResync else s
  ((s.raise F.SYS_EVT_WAKE).raise F.SYS_EVT_PWR_DONE).count F.SYS_CNT_WAKES_V

/-- The ramp of the last block has ended; a transition to QUIET or RUN ends with it (R435). -/
def State.rampEnds (s : State) : State :=
  let r := s.pwr.ramp
  if r == 1 || r == 3 then
    let s := { s with pwr := { s.pwr with ramp := if r == 1 then 2 else 0 } }
    if s.pwr.goal.isNone && s.on F.SYS_STAT_BUSY then (s.wr F.SYS_STAT_BUSY 0).raise F.SYS_EVT_PWR_DONE else s
  else s

/-- A request reaches its boundary: the ramp of R436, or the first step of R437. -/
def State.goalBegins (s : State) (g : Nat) : State :=
  let was := s.rd F.SYS_STAT_PWR
  if g ≤ 1 then
    let s := s.wr F.SYS_STAT_PWR g
    { s with pwr := { s.pwr with goal := none, at' := none, ramp := if g == 1 then 1 else 3 } }
  else { s with pwr := { s.pwr with at' := none, down := true, ramp := if was == 0 then 1 else s.pwr.ramp } }

/-- Steps 2 and 3 of R437, from the boundary after the ramp on: sessions and transactions end, then commits and journal
groups are waited for. -/
def State.goingDown (s : State) (g : Nat) : State :=
  let s := (List.range 8).foldl (fun s n => s.closeSession n 21) s
  let s := (List.range 8).foldl (fun s i => s.txnDrop i 11) s
  if s.commits.isEmpty && s.boot.waiting.isEmpty && s.osp.ses.isEmpty then
    (if g == 2 then s.standbyReached else s.offReached)
  else s

/-- The power states at a block boundary. -/
def State.pwrTick (s : State) : State :=
  let s := s.rampEnds
  if s.pwr.exit then s.standbyLeft
  else
    match s.pwr.goal with
    | none => s
    | some g =>
      if s.pwr.down then s.goingDown g
      else if (match s.pwr.at' with | some b => decide (b ≤ s.time.block) | none => true) then
        (if s.rd F.SYS_STAT_PWR == 2 then s.goingDown g else s.goalBegins g)
      else s

/-- A level of the WAKE pin is a wake event: the one that PIN_POL names. -/
def State.pinWakes (s : State) (level : Bool) : Bool := s.on F.SYS_WAKE_PIN_EN && level != s.on F.SYS_WAKE_PIN_POL

/-- WAKE: a wake source (R438), or the start out of OFF (R439). -/
def State.wakeNow (s : State) (src : WakeSource) : State :=
  if s.pwr.off then
    match src with
    | .resetPin => s.askReset 1
    | .pin level => if s.pinWakes level then s.askReset 1 else s
    | _ => s
  else
    match src with
    | .pin level => if s.pinWakes level then s.wakeEvent else s
    | .pattern => if s.on F.SYS_WAKE_PAT_EN then s.wakeEvent else s
    | .host => if s.rd F.SYS_STAT_PWR == 2 then s.wakeEvent else s
    | .resetPin => s

/-! ## Supplies and temperature (R449, R457) -/

/-- SUPPLY: a rail leaves its window. -/
def State.railOut (s : State) (rail : Nat) : State :=
  if 9 ≤ rail then s
  else
    let w := s.rd F.SYS_SUPPLY_OUT
    (s.wr F.SYS_SUPPLY_OUT (w ||| 2 ^ rail)).raiseIf (w == 0) F.SYS_HW_EVT_SUPPLY

/-- RAIL_IN_WINDOW. -/
def State.railIn (s : State) (rail : Nat) : State :=
  let w := s.rd F.SYS_SUPPLY_OUT
  if w / 2 ^ rail % 2 = 1 then s.wr F.SYS_SUPPLY_OUT (w - 2 ^ rail) else s

/-- A trip with TRIP_QUIET: the device enters QUIET, unless it is going further down. -/
def State.tripQuiet (s : State) : State :=
  if s.on F.SYS_THERM_TRIP_QUIET && s.booted && s.rd F.SYS_STAT_PWR == 0
      && (s.pwr.goal.isNone || s.pwr.goal == some 0) then
    ({ s with pwr := { s.pwr with goal := some 1, at' := none } } : State).wr F.SYS_STAT_BUSY 1
  else s

/-- A reading against WARN and TRIP, in 0.01 °C. -/
def State.tempJudge (s : State) (t : Int) : State :=
  let s := (s.wrS F.SYS_TEMP_TEMP t).wr F.SYS_TEMP_VALID 1
  let warm := decide ((s.rd F.SYS_THERM_WARN : Int) * 100 ≤ t)
  let s := s.raiseIf (warm && !s.pwr.warm) F.SYS_HW_EVT_WARN
  let s := { s with pwr := { s.pwr with warm := warm } }
  let trip := (s.rd F.SYS_THERM_TRIP : Int) * 100
  if trip ≤ t then
    let entry := !s.on F.SYS_THERM_THERMAL
    let s := (s.raise F.SYS_HW_EVT_TRIP).wr F.SYS_THERM_THERMAL 1
    if entry then s.tripQuiet else s
  else if t ≤ trip - 500 then s.wr F.SYS_THERM_THERMAL 0
  else s

/-- TEMP_UPDATE. -/
def State.tempUpdate (s : State) (t : Int) : State :=
  let s := if s.pwr.off then s else s.tempJudge t
  if 12500 ≤ t then
    let s := s.wr F.SYS_THERM_CRIT_SEEN 1
    let s := { s with pwr := { s.pwr with crit := true } }
    if s.pwr.off then s else s.offReached
  else if s.pwr.crit && decide (t ≤ 10500) then
    let s := { s with pwr := { s.pwr with crit := false } }
    s.askReset 1
  else s

end Sys2Proof.Machine
end

