-- ==== Sys2Proof/Machine/Host.lean ====
section
/-!
DEFINITION. Host accesses (R383 to R397, R402, R411 to R416, R424, R430, R434, R441, R443, R459): which addresses answer, what a
read returns, what a write does and how it is logged, and the words of a PCIe request, an SPI frame or a tunnelled access.
-/

namespace Sys2Proof.Machine

/-! ## Which addresses answer (R431, R434) -/

/-- A window answers in the present state: while booting only SYS, LOG and BOOT, in STANDBY those of R434. -/
def State.answers (s : State) (addr : Nat) : Bool :=
  let always := within 0 0x1000 addr || within 0x4000 0x1000 addr || within 0x20000 0x10000 addr || within 0x38C0000 0x40000 addr
  if !s.booted then always
  else if s.rd F.SYS_STAT_PWR == 2 then
    always || within 0x1000 0x2000 addr || within 0x6000 0x1000 addr || within 0x100000 0x20000 addr || within 0x140000 0x20000 addr
  else true

/-- The SEC and TXN windows, whose writes act directly (R412). -/
def directWindow (addr : Nat) : Bool := within 0x2000 0x2000 addr

/-- The memory windows of R411, whose writes are not logged (R424). -/
def memWindow (addr : Nat) : Bool := memWindows.any fun r => within r.1 r.2 addr

/-! ## Roles of fields (R5, R394, R441) -/

def RoleNeed.code : RoleNeed → Nat
  | .z => 0 | .o => 1 | .i => 2 | .m => 3

def tstWindow (addr : Nat) : Bool := within 0x3900000 0x40000 addr

/-- The role a field needs; in BLANK and RETURNED the TST columns read as O. -/
def State.needs (s : State) (f : Field) : Nat :=
  if tstWindow f.reg.base && (s.lifecycle == 1 || s.lifecycle == 15) then min 1 f.role.code else f.role.code

/-- The role an access has at a register: none in TST without test access. -/
def State.roleAt (s : State) (a : Access) (e : RegEntry) : Nat :=
  if tstWindow e.reg.base && !s.testAccess a then 0 else s.roleOf a

/-- A field is guarded: its register is, or its role is M. -/
def RegEntry.guarded (e : RegEntry) (f : Field) : Bool := e.attrs.contains .guard || f.role == .m

/-! ## Reads -/

/-- An access of the session to its scope or its TXN window (R416). -/
def State.touch (s : State) (a : Access) (addr : Nat) : State :=
  if s.txnOwn a && (s.inScope a.slot addr || within 0x3000 0x1000 addr) then s.txnTouch a.slot else s

/-- The read-write fields of a word. -/
def rwBits (e : RegEntry) (w : Nat) : Nat :=
  fieldsInto 0 ((e.fields.filter fun f => f.acc == .rw).map fun f => (f, f.of (BitVec.ofNat 32 w)))

/-- The guarded fields of a register that are above the role of an access: it reads them as 0 and does not change them. -/
def State.hidden (s : State) (a : Access) (e : RegEntry) : List Field :=
  e.fields.filter fun f => e.guarded f && decide (s.roleAt a e < s.needs f)

/-- What the writer would read back (R412, R459): the active word, inside its own open transaction with its staged value over
it, and the hidden fields 0. -/
def State.readBack (s : State) (a : Access) (addr : Nat) (e : RegEntry) (ix : List Nat) : Nat :=
  let live := s.liveWord a e (e.home ix)
  let v := match (if s.txnOwn a && s.txnState a.slot == 1 then (s.txnSlot a.slot).staged.lookup addr else none) with
    | some w => fieldsInto live ((e.fields.filter fun f => f.acc == .rw).map fun f => (f, f.clamp (f.of (BitVec.ofNat 32 w))))
    | none => live
  fieldsInto v ((s.hidden a e).map fun f => (f, 0))

/-- The word that a write stores: the word written, with the hidden fields as they stand. -/
def State.keepHidden (s : State) (a : Access) (e : RegEntry) (ix : List Nat) (v : Nat) : Nat :=
  let live := s.liveWord a e (e.home ix)
  fieldsInto v ((s.hidden a e).map fun f => (f, f.of (BitVec.ofNat 32 live)))

/-! ## Changes (R459) -/

/-- The fields that a write changes. -/
def changedFields (e : RegEntry) (present v : Nat) : List Field :=
  e.fields.filter fun f =>
    let new := f.of (BitVec.ofNat 32 v)
    match f.acc with
    | .rw => new != f.of (BitVec.ofNat 32 present)
    | .wo => true
    | .w1c => new != 0
    | .w1s => new != 0
    | .ro => false
    | .img => false

/-- A write is denied (R394, R459): it changes a field above the role. A write that changes nothing is not. -/
def State.denies (s : State) (a : Access) (e : RegEntry) (changed : List Field) : Bool :=
  changed.any fun f => decide (s.roleAt a e < s.needs f)

/-! ## What writes start -/

/-- The ring devices that a write of CAS_RST.GO resets (R337). -/
def State.ringTargets (s : State) : List Nat :=
  if s.on F.CAS_RST_ALL then (List.range s.casSize).filter (· != 0) else [s.rd F.CAS_RST_DEV].filter (· != 0)

/-- CAS_RST.GO. -/
def State.casReset (s : State) : State :=
  if s.isHead then s.ringTargets.foldl (fun s d => s.emit (.ringReset d)) s else s

/-- The copy that FAB_DMAd describes now. -/
def State.dmaJob (s : State) (a : Access) (d : Nat) : DmaJob :=
  { access := a
    src := s.rd F.FAB_DMAd_SRC_HI_V [d] * 2 ^ 32 + s.rd F.FAB_DMAd_SRC_LO_V [d]
    dst := s.rd F.FAB_DMAd_DST_HI_V [d] * 2 ^ 32 + s.rd F.FAB_DMAd_DST_LO_V [d]
    words := s.rd F.FAB_DMAd_LEN_LEN [d] / 4 }

/-- A DMA job ends with a code: DMA_DONE or DMA_ERR of the engine is raised. -/
def State.dmaEnd (s : State) (d err : Nat) : State :=
  let s := (s.wr F.FAB_DMAd_STAT_BUSY 0 [d]).wr F.FAB_DMAd_STAT_ERR err [d]
  let s := { s with fab := { s.fab with dma := Tab.put s.fab.dma d none } }
  if err == 0 then s.wr F.FAB_EVT_DMA_DONE (s.rd F.FAB_EVT_DMA_DONE ||| 2 ^ d)
  else s.wr F.FAB_EVT_DMA_ERR (s.rd F.FAB_EVT_DMA_ERR ||| 2 ^ d)

/-- FAB_DMAd_CTRL.GO: a job starts; while one runs, ERR 14 and nothing else. -/
def State.dmaGo (s : State) (a : Access) (d : Nat) : State :=
  if s.on F.FAB_DMAd_STAT_BUSY [d] then s.wr F.FAB_DMAd_STAT_ERR 14 [d]
  else
    let s := { s with fab := { s.fab with dma := Tab.put s.fab.dma d (some (s.dmaJob a d)) } }
    (s.wr F.FAB_DMAd_STAT_BUSY 1 [d]).wr F.FAB_DMAd_STAT_ERR 0 [d]

/-- FAB_DMAd_CTRL.ABORT: the job ends, and its delivered beats land while the port drains (R391). -/
def State.dmaAbort (s : State) (d : Nat) : State :=
  match s.fab.dma.lookup d with
  | none => s
  | some j =>
    let n := s.draw .shaping [8, (d : Int)] % (j.words + 1)
    let s := { s with fab := { s.fab with cut := Tab.put s.fab.cut d (some { j with words := n }) } }
    (s.dmaEnd d 15).drain (4 + d)

/-- The actions of a write to a register of SEC, TXN, SYS, LOG, IRQ or BOOT; `v` is the word written. -/
def State.actControl (s : State) (a : Access) (r : Reg) (ix : List Nat) (v : Nat) : State :=
  let on (f : Field) : Bool := f.of (BitVec.ofNat 32 v) != 0
  if r == R.SYS_PWRCTRL then (if on F.SYS_PWRCTRL_GO then s.pwrRequest else s)
  else if r == R.SYS_RSTCTRL then s.softAsked v
  else if r == R.SEC_OPEN_CTRL then s.openControl a v
  else if r == R.SEC_KLOAD_CTRL then (if on F.SEC_KLOAD_CTRL_GO then s.keyLoad a else s)
  else if r == R.SEC_KLOAD_Wi || r == R.SEC_LC_CONFIRM then s.setWord r (BitVec.ofNat 32 v) ix
  else if r == R.SEC_LC_CTRL then (if on F.SEC_LC_CTRL_GO then s.lifecycleGo a else s)
  else if r == R.SEC_PROV_MKEYi then (if s.lifecycle == 1 then s.setWord r (BitVec.ofNat 32 v) ix else s)
  else if r == R.SEC_PROV_KHASHk_i then
    (if s.lifecycle == 1 then
      let k := ix.headD 0
      let t := s.setWord r (BitVec.ofNat 32 v) ix
      if t.sec.provHash.contains k then t else { t with sec := { t.sec with provHash := t.sec.provHash ++ [k] } }
    else s)
  else if r == R.SEC_PROV_REVOKE then (if on F.SEC_PROV_REVOKE_KEY then s.revoke a (v % 16) else s)
  else if r == R.TXN_CTRL then s.txnControl a v
  else if r == R.LOG_CTRL then (if on F.LOG_CTRL_FLUSH then s.logFlush else s)
  else if r == R.IRQ_EOI then s.irqEoi v
  else if r == R.BOOT_CTRL then (if on F.BOOT_CTRL_RB_ADVANCE then s.rbAdvance else s)
  else if r == R.BOOT_PCTRL then (if on F.BOOT_PCTRL_CLEAR then s.askClear else s)
  else if r == R.BOOT_FCMD then (if on F.BOOT_FCMD_GO then s.fcmdGo else s)
  else s

/-- The actions of a write to a register of another unit. -/
def State.actUnit (s : State) (a : Access) (r : Reg) (ix : List Nat) (v : Nat) : State :=
  let on (f : Field) : Bool := f.of (BitVec.ofNat 32 v) != 0
  let n := ix.headD 0
  if r == R.PTP_TXTS_POP then (if on F.PTP_TXTS_POP_POP then s.txtsDrop n else s)
  else if r == R.PTP_REACQ then (if on F.PTP_REACQ_GO then s.reacq else s)
  else if r == R.OSP_SESn_CTRL then (if on F.OSP_SESn_CTRL_CLOSE then s.closeSession n 21 else s)
  else if r == R.BRMq_CTRL then s.brmControl n v
  else if r == R.BRMq_WR then s.brmWrite n v
  else if r == R.CNV_STAGE_CTRL then
    (if on F.CNV_STAGE_CTRL_GO then s.stageGo (s.on F.CNV_STAGE_CTRL_FMT) s.protectedFilters else s)
  else if r == R.LDCc_DOORBELL then (if on F.LDCc_DOORBELL_RING then s.wr F.LDCc_IRQ_PEND_DOORBELL 1 [n] else s)
  else if r == R.LDCc_PEAK then (if on F.LDCc_PEAK_CLR then s.wr F.LDCc_PEAK_PEAK 0 [n] else s)
  else if r == R.CAS_RST then (if on F.CAS_RST_GO then s.casReset else s)
  else if r == R.RED_CTRL then
    let s := if on F.RED_CTRL_YIELD then s.yieldNow else s
    (if on F.RED_CTRL_RESYNC then s.resyncNow else s)
  else if r == R.FAB_DMAd_CTRL then
    let s := if on F.FAB_DMAd_CTRL_ABORT then s.dmaAbort n else s
    (if on F.FAB_DMAd_CTRL_GO then s.dmaGo a n else s)
  else s

/-- The W1C bits written clear, and the actions of the other fields happen. -/
def State.acts (s : State) (a : Access) (e : RegEntry) (ix : List Nat) (v : Nat) : State :=
  let s := e.fields.foldl (fun s f =>
    if f.acc == .w1c then
      let old := s.rd f ix
      s.wr f (old - (old &&& f.of (BitVec.ofNat 32 v))) ix
    else s) s
  if e.reg.base < 0x10000 || within 0x38C0000 0x40000 e.reg.base then s.actControl a e.reg ix v else s.actUnit a e.reg ix v

/-! ## Logging (R424, R425, R443) -/

/-- Registers whose old and new values read 0 in the log. -/
def secretRegs : List Reg :=
  [R.SEC_OPEN_CNONCEi, R.SEC_OPEN_DNONCEi, R.SEC_OPEN_MACi, R.SEC_OPEN_PROOFi, R.SEC_KLOAD_Wi, R.SEC_PROV_MKEYi]

/-- The kind of a write that goes through: PERTURB at a changed TST control; DENIED for SOFT without its key and a flash
command on a protected range. -/
def State.writeKind (s : State) (e : RegEntry) (changed : List Field) (v : Nat) : Nat :=
  let fcmd := v / 2 ^ 31 % 2 == 1 && s.fcmdError (v % 4) (s.rd F.BOOT_FADDR_ADDR) == 1
  if tstControls.contains e.reg && !changed.isEmpty then 12
  else if e.reg == R.SYS_RSTCTRL && v % 2 == 1 && v / 65536 != 0xA5C3 then 2
  else if e.reg == R.BOOT_FCMD && fcmd then 2
  else 0

/-- The entry of a host write to a register. -/
def State.logWrite (s : State) (a : Access) (kind addr : Nat) (e : RegEntry) (ix : List Nat) (v result : Nat) : State :=
  if memWindow addr && kind != 2 then s
  else if secretRegs.contains e.reg then s.logAccess a kind addr 0 0 result
  else s.logAccess a kind addr (s.liveWord a e (e.home ix)) v result

/-- A denied write (R394). -/
def State.denied (s : State) : State := (s.count F.FAB_CNT_DENIED_V).raise F.FAB_EVT_DENIED

/-- A blocked write (R414). -/
def State.blocked (s : State) : State := (s.count F.TXN_CNT_BLOCKED_V).raise F.TXN_EVT_BLOCKED

/-! ## A write to a register -/

/-- A write inside the session's own OPEN or DOOMED transaction (R412, R413). -/
def State.writeStaged (s : State) (a : Access) (addr : Nat) (e : RegEntry) (ix : List Nat) (v : Nat) (rw : Bool) : State :=
  let i := a.slot
  if !s.inScope i addr then (s.logWrite a 0 addr e ix v 4).txnDoom i 4 addr
  else if s.txnState i == 2 || !rw then (s.logWrite a 0 addr e ix v 0).acts a e (e.home ix) v
  else
    let v := s.keepHidden a e ix v
    let new := ((s.txnSlot i).staged.lookup addr).isNone
    if new && decide (4096 ≤ s.journalUsed) then ((s.logWrite a 0 addr e ix v 0).acts a e (e.home ix) v).txnDoom i 6 addr
    else
      let s := (s.logWrite a 1 addr e ix v 0).acts a e (e.home ix) v
      s.setTxnSlot i { s.txnSlot i with staged := Tab.put (s.txnSlot i).staged addr (some v) }

/-- A read-write change inside the scope of a transaction that is not IDLE (R414). -/
def State.blocks (s : State) (addr : Nat) : List Nat :=
  (List.range 8).filter fun j => s.txnState j != 0 && s.inScope j addr

/-- A write outside any transaction of its own (R235, R397, R414). -/
def State.writeDirect (s : State) (a : Access) (addr : Nat) (e : RegEntry) (ix : List Nat) (v : Nat)
    (changed : List Field) : State :=
  let rw := changed.any fun f => f.acc == .rw
  let by' := if directWindow addr then [] else s.blocks addr
  let t := s.logWrite a (if rw && !by'.isEmpty then 3 else s.writeKind e changed v) addr e ix v 0
  if rw && !by'.isEmpty then
    let t := t.blocked
    if s.txnOwn a && by' == [a.slot] then t.acts a e (e.home ix) v else t
  else if e.safe then (t.acts a e (e.home ix) v).oneWrite a addr (s.keepHidden a e ix v)
  else (if rw then t.storeNow e (e.home ix) (s.keepHidden a e ix v) else t).acts a e (e.home ix) v

/-- A host write to a register: denied, logged alone, staged, blocked, committed or done at once. -/
def State.writeReg (s : State) (a : Access) (addr : Nat) (e : RegEntry) (ix : List Nat) (v : Nat) : State :=
  let changed := changedFields e (s.readBack a addr e ix) v
  let inTxn := s.txnOwn a && (s.txnState a.slot == 1 || s.txnState a.slot == 2) && !directWindow addr
  if s.denies a e changed then
    let t := (s.logWrite a 2 addr e ix v 0).denied
    if inTxn then t.txnDoom a.slot 5 addr else t
  else if inTxn then
    if changed.isEmpty then s.logWrite a 0 addr e ix v 0
    else s.writeStaged a addr e ix v (changed.any fun f => f.acc == .rw)
  else s.writeDirect a addr e ix v changed

/-! ## A write to a memory window (R258, R281, R411, R412) -/

/-- A host write of bytes to a memory window that is no register. -/
def State.writeWindow (s : State) (a : Access) (addr : Nat) (w : Window) (bs : List Byte) : State :=
  let v := ofLe bs
  let old := ofLe (s.windowRead w bs.length)
  let inTxn := s.txnOwn a && (s.txnState a.slot == 1 || s.txnState a.slot == 2)
  if s.roleOf a == 0 && old == v then s
  else if s.roleOf a == 0 then
    let t := (s.logAccess a 2 addr old v 0).denied
    if inTxn then t.txnDoom a.slot 5 addr else t
  else if inTxn then (if old == v then s else s.txnDoom a.slot 4 addr)
  else
    match w with
    | .core c 0 _ =>
      if s.luvState c == 0 then s.windowWrite w bs else (s.raise F.LDCc_EVT_PGM_BUSY [c]).logAccess a 2 addr old v 0
    | .coef bank off =>
      if s.cellsBusy bank off bs.length then (s.count F.CNV_CNT_BUSY_WR_V).raise F.CNV_EVT_BUSY_WR else s.windowWrite w bs
    | _ => s.windowWrite w bs

/-! ## One access to this device's map (R392, R394, R395) -/

/-- An access of 1, 2 or 4 bytes: the state after it, with the value read (0 for a write) or the cause of a bus error. -/
def State.localWord (s : State) (a : Access) (addr size : Nat) (write : Option Nat) : State × Except BusCause Nat :=
  if size % 2 == 1 && size != 1 then (s, .error .width)
  else if addr % size != 0 then (s, .error .align)
  else if size != 1 && size != 2 && size != 4 then (s, .error .width)
  else if !s.answers addr then (s, .error .unmapped)
  else
    let s := s.touch a addr
    match s.windowAt addr with
    | some w =>
      if !s.windowThere w size then (s, .error .unmapped)
      else
        let s := s.arbitrates w
        match write with
        | none => (s, .ok (ofLe (s.windowRead w size)))
        | some v => (s.writeWindow a addr w (leBytes size v), .ok 0)
    | none =>
      let word := addr / 4 * 4
      match findReg word a.slot with
      | none => (s, .error .unmapped)
      | some (e, ix) =>
        let mem := e.attrs.contains .mem
        if !s.present e ix then (s, .error .unmapped)
        else match write with
          | none =>
            if size != 4 && e.attrs.contains .latch then (s, .error .width)
            else
              let v := s.readBack a word e ix
              (s.latchRead e.reg ix, .ok (v / 2 ^ (8 * (addr % 4)) % 2 ^ (8 * size)))
          | some v =>
            if size == 4 then (s.writeReg a word e ix (v % 2 ^ 32), .ok 0)
            else if !mem then (s, .error .width)
            else
              let old := s.readBack a word e ix
              let v := ((leBytes size v).zipIdx).foldl (fun w b => withByte w (addr % 4 + b.2) b.1) old
              (s.writeReg a word e ix v, .ok 0)

/-! ## The words of an access (R334, R335, R385, R388, R391, R393, R396) -/

/-- Where a host's word goes. -/
inductive HostPath where
  | here
  | bad (cause : BusCause)
  | member (dev : Nat)
  deriving DecidableEq, Repr

/-- The route of a host access by its fabric address. -/
def State.routeOf (s : State) (addr : Nat) : HostPath :=
  let dev := addr / 0x4000000
  if dev == 0 then .here
  else if 64 ≤ dev then .bad .unmapped
  else if s.legacy then .bad .path
  else if !s.isHead || decide (s.casSize ≤ dev) || !s.casRuns || (s.toward dev).isNone then .bad .nodev
  else if 8 ≤ (s.ring.tun.filter fun e => e.1 == dev).length then .bad .busy
  else .member dev

/-- An access ends: its answer goes out. A failed PCIe read is all ones, or a Completer Abort; the words of a failed SPI
read are 0, and an SPI write answers its status alone. -/
def State.jobEnd (s : State) (j : HostJob) (cause : Nat) : State :=
  let n := j.got.length + j.todo.length
  if !j.reads then s
  else match j.access.iface with
    | .tunnel => s.emit (.tunnelAnswer (j.got.headD 0) cause)
    | .spi =>
      let writes := j.todo.any fun w => w.2.2.isSome
      s.emit (.answer j.access (if cause == 0 || writes then j.got else List.replicate n 0) cause)
    | .pcie =>
      if cause == 0 then s.emit (.answer j.access j.got 0)
      else if s.on F.FAB_CFG_CA_MODE then s.emit (.answer j.access [] cause)
      else
        let ones := j.got.map (fun _ => 0xFFFFFFFF) ++ j.todo.map fun w => 2 ^ (8 * w.2.1) - 1
        s.emit (.answer j.access ones 0)

/-- A word of an access fails: the bus error is recorded and the access ends. -/
def State.jobFails (s : State) (j : HostJob) (cause : BusCause) : State :=
  match j.todo with
  | [] => s
  | (addr, _, w) :: _ =>
    let s := if cause == .busy then (s.count F.CAS_CNT_TUN_BUSY_V).raise F.CAS_EVT_TUN_BUSY else s
    (s.busError cause.code (Access.master j.access) w.isSome j.access.slot addr).jobEnd j cause.code

/-- A word travels to a ring member. -/
def State.jobTravels (s : State) (dev : Nat) (j : HostJob) : State :=
  match j.todo with
  | [] => s
  | (addr, size, w) :: _ =>
    let a : Access := { iface := .tunnel, slot := j.access.slot, carriedRole := s.roleOf j.access,
                        carriedHandle := s.handleOf j.access }
    ({ s with ring := { s.ring with tun := s.ring.tun ++ [(dev, j)] } } : State).emit
      (.tunnelRequest dev a (addr % 0x4000000) size w)

/-- The words of an access that lie on this device are performed in order until one fails or travels. -/
def State.runWords (s : State) (a : Access) (reads : Bool) (got : List Nat) : List (Nat × Nat × Option Nat) → State
  | [] => s.jobEnd { access := a, reads := reads, todo := [], got := got } 0
  | (addr, size, w) :: rest =>
    let j : HostJob := { access := a, reads := reads, todo := (addr, size, w) :: rest, got := got }
    match s.routeOf addr with
    | .bad cause => s.jobFails j cause
    | .member dev => s.jobTravels dev j
    | .here =>
      match s.localWord a addr size w with
      | (s, .ok v) => s.runWords a reads (if w.isNone then got ++ [v] else got) rest
      | (s, .error cause) => s.jobFails j cause

/-- An access starts; in OFF no interface works, and a draining master waits. -/
def State.startJob (s : State) (j : HostJob) : State :=
  if s.pwr.off then s
  else if s.fab.drains.contains (Access.master j.access) then
    { s with fab := { s.fab with waiting := s.fab.waiting ++ [(Access.master j.access, j)] } }
  else s.runWords j.access j.reads j.got j.todo

/-- The 32-bit words of an access; one of 8 bytes is two (R392). -/
def accessWords (addr size : Nat) (write : Option Nat) : List (Nat × Nat × Option Nat) :=
  if size == 8 then
    if addr % 8 == 0 then [(addr, 4, write.map (· % 2 ^ 32)), (addr + 4, 4, write.map (· / 2 ^ 32 % 2 ^ 32))]
    else [(addr, 8, write)]
  else [(addr, size, write)]

/-- A host write. -/
def State.hostWrite (s : State) (a : Access) (addr size v : Nat) : State :=
  s.startJob { access := a, reads := a.iface != .pcie, todo := accessWords addr size (some v) }

/-- A host read. -/
def State.hostRead (s : State) (a : Access) (addr size : Nat) : State :=
  s.startJob { access := a, reads := true, todo := accessWords addr size none }

/-- The address at which a host finds a copy of a register: the slot of a banked one is the access's own. -/
def Reg.addr (r : Reg) (ix : List Nat) : Nat := if r.dims.any fun d => d.2 == 2 ^ 40 then r.base + (((r.dims.dropLast).zip ix).map fun p => p.2 * p.1.2).sum else r.key ix

/-- A host write to a register that keeps its read-write fields and writes `bits` beside them. -/
def State.writeAction (s : State) (a : Access) (r : Reg) (ix : List Nat) (bits : Nat) : State :=
  match findReg (r.addr ix) a.slot with
  | some (e, i) => s.hostWrite a (r.addr ix) 4 (rwBits e (s.readBack a (r.addr ix) e i) ||| bits)
  | none => s

/-! ## PCIe requests and SPI frames (R385, R386, R393) -/

/-- A host write to a register that keeps its read-write fields but for the bits of `mask`, which it clears. -/
def State.writeClear (s : State) (a : Access) (r : Reg) (ix : List Nat) (mask : Nat) : State :=
  match findReg (r.addr ix) a.slot with
  | some (e, i) =>
    let w := rwBits e (s.readBack a (r.addr ix) e i)
    s.hostWrite a (r.addr ix) 4 (w - (w &&& mask))
  | none => s

/-- A double word of a PCIe request by its byte enables: offset and size; size 3 stands for enables that are not contiguous
or cover 3 bytes. -/
def enabledPart (be : Nat) : Option (Nat × Nat) :=
  match be % 16 with
  | 0 => none
  | 15 => some (0, 4)
  | 1 => some (0, 1) | 2 => some (1, 1) | 4 => some (2, 1) | 8 => some (3, 1)
  | 3 => some (0, 2) | 6 => some (1, 2) | 12 => some (2, 2)
  | _ => some (0, 3)

/-- The words of a PCIe request. -/
def pcieWords (addr : Nat) (data : List Nat) (write : Bool) (enables : List Nat) : List (Nat × Nat × Option Nat) :=
  enables.zipIdx.filterMap fun e => (enabledPart e.1).map fun p =>
    (addr + 4 * e.2 + p.1, p.2, if write then some (data.getD e.2 0 / 2 ^ (8 * p.1) % 2 ^ (8 * p.2)) else none)

/-- PCIE_REQUEST. -/
def State.pcieRequest (s : State) (offset : Nat) (enables data : List Nat) (write : Bool) : State :=
  let a : Access := { iface := .pcie, slot := offset / 2 ^ 32 % 8 }
  s.startJob { access := a, reads := !write, todo := pcieWords (offset % 2 ^ 32 / 4 * 4) data write enables }

/-- SPI_FRAME. -/
def State.spiFrame (s : State) (cmd addr : Nat) (data : List Nat) : State :=
  let a : Access := { iface := .spi, slot := cmd / 16 % 8 }
  let write := cmd / 128 % 2 == 1
  let words := (List.range (cmd % 16 + 1)).map fun (k : Nat) =>
    (addr % 2 ^ 32 + 4 * k, 4, if write then some (data.getD k 0) else none)
  s.startJob { access := a, reads := true, todo := words }

/-- What an interface's outstanding work becomes when its master is reset: requests on the ring run out unanswered, waiting
ones are forgotten (R391). -/
def State.forget (s : State) (i : Iface) : State :=
  let tun := s.ring.tun.map fun e => if e.2.access.iface == i then (e.1, { e.2 with reads := false, todo := e.2.todo.take 1 }) else e
  { s with ring := { s.ring with tun := tun }
           fab := { s.fab with waiting := s.fab.waiting.filter fun w => w.2.access.iface != i } }

/-- SPI_ABORT. -/
def State.spiAbort (s : State) : State := if s.pwr.off then s else (s.forget .spi).drain 1

/-- PCIE_LINK_RESET: the sessions of PCIe close, their open transactions are rolled back. -/
def State.pcieLinkReset (s : State) : State := if s.pwr.off then s else (s.pcieCloses.forget .pcie).drain 0

/-! ## Tunnelled accesses (R334 to R336) -/

/-- TUNNEL_REQUEST at a member: its own rules apply to it as to a local access. A part in Safe Mute that has a number by R378
serves it too. -/
def State.tunnelServe (s : State) (a : Access) (addr size : Nat) (write : Option Nat) : State :=
  let numbered := s.ringMute && s.boot.net.isSome
  if numbered || (s.on F.CAS_CFG_EN && !s.isHead && s.rd F.CAS_STAT_STATE != 5) then
    s.startJob { access := { a with iface := .tunnel }, reads := true, todo := [(addr % 0x4000000, size, write)] }
  else s

/-- Takes the oldest request outstanding to a member. -/
def takeOldest (dev : Nat) : List (Nat × HostJob) → Option (HostJob × List (Nat × HostJob))
  | [] => none
  | (d, j) :: rest => if d = dev then some (j, rest) else (takeOldest dev rest).map fun r => (r.1, (d, j) :: r.2)

/-- The oldest request to a member is answered. -/
def State.tunnelEnds (s : State) (dev : Nat) (f : State → HostJob → State) : State :=
  match takeOldest dev s.ring.tun with
  | some (j, rest) => f { s with ring := { s.ring with tun := rest } } j
  | none => s

/-- A cause by its code. -/
def causeOf (code : Nat) : BusCause :=
  match code with
  | 2 => .align | 3 => .width | 4 => .path | 5 => .nodev | 6 => .busy | 7 => .timeout | 8 => .ring | _ => .unmapped

/-- A request's answer: the access goes on with its next word, or fails with the member's cause. -/
def State.jobAnswered (s : State) (value cause : Nat) (j : HostJob) : State :=
  if cause != 0 then
    match j.todo with
    | (addr, _, w) :: _ => (s.busError cause (Access.master j.access) w.isSome j.access.slot addr).jobEnd j cause
    | [] => s
  else
    match j.todo with
    | (_, _, w) :: rest => s.runWords j.access j.reads (if w.isNone then j.got ++ [value] else j.got) rest
    | [] => s

/-- TUNNEL_ANSWER on the head. -/
def State.tunnelAnswer (s : State) (dev value cause : Nat) : State := s.tunnelEnds dev fun s j => s.jobAnswered value cause j

/-- TUNNEL_TIMEOUT: no answer within 2 ms. -/
def State.tunnelTimeout (s : State) (dev : Nat) : State :=
  s.tunnelEnds dev fun s j => (s.count F.CAS_CNT_TUN_TIMEOUT_V).jobFails j .timeout

/-- A wrap takes effect: on the head every outstanding request is answered with RING; on a member the tunnel's master is
reset (R336, R391). -/
def State.tunnelsWrapped (s : State) : State :=
  if s.isHead then
    let l := s.ring.tun
    l.foldl (fun s e => (s.count F.CAS_CNT_TUN_RING_V).jobFails e.2 .ring) { s with ring := { s.ring with tun := [] } }
  else s.drain 2

/-- WRAP. -/
def State.wrapTakes (s : State) : State :=
  let t := s.wrapNow
  if s.ring.wrapDue == t.ring.wrapDue then t else t.tunnelsWrapped

/-! ## DMA copies (R388, R399) -/

/-- A DMA engine reads a word: of this device's map, DRAM or host memory; legacy paths leave out the map. -/
def State.dmaRead (s : State) (a : Access) (addr : Nat) : State × Except BusCause Nat :=
  if addr < 0x4000000 && !s.legacy then s.localWord a addr 4 none
  else match s.memRead addr 4 with
    | .ok bs => (s, .ok (ofLe bs))
    | .error c => (s, .error c)

/-- A DMA engine writes a word. -/
def State.dmaWrite (s : State) (a : Access) (addr v : Nat) : State × Option BusCause :=
  if addr < 0x4000000 && !s.legacy then
    match s.localWord a addr 4 (some v) with
    | (s, .ok _) => (s, none)
    | (s, .error c) => (s, some c)
  else match s.memWrite addr (leBytes 4 v) with
    | .ok s => (s, none)
    | .error c => (s, some c)

/-- Copies `n` words in ascending order until a bus error: the state, and the error with its address and direction. -/
def State.dmaCopy (s : State) (a : Access) (src dst : Nat) : Nat → State × Option (BusCause × Nat × Bool)
  | 0 => (s, none)
  | n + 1 =>
    match s.dmaRead a src with
    | (s, .error c) => (s, some (c, src, false))
    | (s, .ok v) =>
      match s.dmaWrite a dst v with
      | (s, some c) => (s, some (c, dst, true))
      | (s, none) => State.dmaCopy s a (src + 4) (dst + 4) n

/-- The cores that FAB_DMAd_NOTIFY names take DMA_DONE. -/
def State.dmaNotify (s : State) (d : Nat) : State :=
  (List.range s.coreCount).foldl (fun s c =>
    if s.rd F.FAB_DMAd_NOTIFY_V [d] / 2 ^ c % 2 = 1 then s.wr F.LDCc_IRQ_PEND_DMA_DONE 1 [c] else s) s

/-- DMA_DONE: a running job comes to its end. -/
def State.dmaDone (s : State) (d : Nat) : State :=
  match s.fab.dma.lookup d with
  | none => s
  | some j =>
    if s.fab.drains.contains (4 + d) || !s.awake then s
    else
      match s.dmaCopy j.access j.src j.dst j.words with
      | (s, none) => (s.dmaEnd d 0).dmaNotify d
      | (s, some (c, addr, w)) => (s.busError c.code (4 + d) w 0 addr).dmaEnd d c.code

/-- DRAIN_END: the delivered beats of an aborted copy have landed, and the master's waiting accesses go on. -/
def State.drainEnd (s : State) (m : Nat) : State :=
  if !s.fab.drains.contains m then s
  else
    let cut := if 4 ≤ m then s.fab.cut.lookup (m - 4) else none
    let jobs := (s.fab.waiting.filter fun w => w.1 == m).map (·.2)
    let s := { s with fab := { s.fab with
      drains := s.fab.drains.filter (· != m), waiting := s.fab.waiting.filter (fun w => w.1 != m)
      cut := if 4 ≤ m then Tab.put s.fab.cut (m - 4) none else s.fab.cut } }
    let s := match cut with
      | some j => (s.dmaCopy j.access j.src j.dst j.words).1
      | none => s
    jobs.foldl (fun s j => s.startJob j) s

end Sys2Proof.Machine
end

