-- ==== Sys2Proof/Machine/CmdBoot.lean ====
section
/-!
DEFINITION. The commands of the boot engine, the flash and the journal (R363 to R382).
-/

namespace Sys2Proof.Machine

/-- BOOT (R374): the boot after a reset. -/
def execBoot (found : BootFound) (flashAnswers : Bool) (s : State) : Host.Outcome State Fault Refusal :=
  (s.bootNow found.dram flashAnswers found.badRead found.lock).finish

/-- PERSIST_DONE (R379): a journal group is durable. -/
def execPersistDone (s : State) : Host.Outcome State Fault Refusal :=
  s.persistDone.finish

/-- RB_ADVANCE (R368): a write of BOOT_CTRL.RB_ADVANCE. -/
def execRbAdvance (a : Access) (s : State) : Host.Outcome State Fault Refusal :=
  (s.writeAction a R.BOOT_CTRL [] 1).finish

/-- READ_PAGE (R382): a write of BOOT_FCMD.GO: a page is read to the buffer. -/
def execReadPage (a : Access) (s : State) : Host.Outcome State Fault Refusal :=
  (s.hostWrite a (R.BOOT_FCMD.addr []) 4 0x80000000).finish

/-- PROGRAM_PAGE (R382): a write of BOOT_FCMD.GO: a page is programmed from the buffer. -/
def execProgramPage (a : Access) (s : State) : Host.Outcome State Fault Refusal :=
  (s.hostWrite a (R.BOOT_FCMD.addr []) 4 0x80000001).finish

/-- ERASE_SECTOR (R382): a write of BOOT_FCMD.GO: a sector is erased. -/
def execEraseSector (a : Access) (s : State) : Host.Outcome State Fault Refusal :=
  (s.hostWrite a (R.BOOT_FCMD.addr []) 4 0x80000002).finish

/-- ERASE_SLOT (R382): a write of BOOT_FCMD.GO: a slot is erased. -/
def execEraseSlot (a : Access) (s : State) : Host.Outcome State Fault Refusal :=
  (s.hostWrite a (R.BOOT_FCMD.addr []) 4 0x80000003).finish

/-- FCMD_DONE (R382): a flash command ends. -/
def execFcmdDone (error : Bool) (s : State) : Host.Outcome State Fault Refusal :=
  (s.fcmdDone error).finish

/-- JOURNAL_CLEAR (R381): a write of BOOT_PCTRL.CLEAR. -/
def execJournalClear (a : Access) (s : State) : Host.Outcome State Fault Refusal :=
  (s.writeAction a R.BOOT_PCTRL [] 1).finish

end Sys2Proof.Machine
end

