-- ==== Sys2Proof/Machine/Tick.lean ====
section
/-!
DEFINITION. The block tick: the steward's work at a tick (R34 to R46), the five steps of R21, and the pipeline of R13 to
R16. A block's audio is computed at the tick that ends it: the blocks presented in block k are in the cores in k + 1 and
k + 2 and at egress in k + 3.
-/

namespace Sys2Proof.Machine

/-! ## The clock at a tick -/

/-- Local time and, once audio has started, the block number move on by one block (R12, R21 step 1, R25). -/
def State.advanceTime (s : State) : State :=
  let t := s.time
  { s with time := { t with local3 := t.local3 + s.block3, up3 := t.up3 + s.block3, block := if t.started then t.block + 1 else t.block } }

/-- The steward at a tick: states are latched, a reference is selected, time may be acquired, and the root is steered.
`phase` is reference minus local in ps. The next selection of R57 is the next tick on which SEL takes 0 or 1 anew: a reference
that stays selected after PTP_REACQ.GO does not acquire (DESIGN CHOICE, log entry 148). -/
def State.clockTick (s : State) (phase : Int) : State :=
  let s := s.refTicks
  let was := s.rd F.CLK_STAT_SEL
  let stood := s.rd F.CLK_STAT_STATE
  let (s, sel) := s.select
  let acquires := decide (sel < 2) && sel != was && !s.time.timeSet
  let s := (s.applySelection sel).tickDisagree
  let e := s.phaseOf sel phase
  let s := if acquires then s.acquire sel e else s
  (s.steer stood (if acquires then e - 1000000 * roundDiv e 1000000 else e)).limitRoot

/-- Audio starts on a member only with ring time (R30). -/
def State.waitsForRing (s : State) : Bool := s.on F.CAS_CFG_EN && !s.isHead

/-- The first tick after a boot that starts audio: block 0 with the boot epoch of R28, or, gridded, the next boundary of
PTP time with its number (R29). The wait for that boundary, less than a block, passes within this tick: local time goes on to the
boundary, and no block is counted (DESIGN CHOICE, log entry 149). -/
def State.startAudio (s : State) : State :=
  let t := s.time
  if !t.armed || t.started || s.waitsForRing then s
  else
    let sel := s.rd F.CLK_STAT_SEL
    if s.on F.CLK_CTRL_GRID_ALIGN && s.rd F.CLK_STAT_STATE == 2 && decide (sel < 2) then
      let n := (t.local3 + s.block3 - 1) / s.block3
      let s := s.wr F.CLK_STAT_GRIDDED 1
      ({ s with time := { t with
        started := true, block := n, local3 := n * s.block3, up3 := t.up3 + (n * s.block3 - t.local3), epoch3 := 0, acq := 0 } }
        : State).audioStarts
    else ({ s with time := { t with started := true, block := 0, epoch3 := t.local3, acq := 0 } } : State).audioStarts

/-! ## The block that ends -/

/-- The audio of the block that ends: what the cores pass on, the bus sums of the inputs of the block before, and the
egress of its output stage. -/
def State.finishBlock (s : State) : State × Tab (List Int) × Tab (List Int) :=
  let b := s.time.block
  let (s, inputs, egress) := s.passOn s.rendersAll
  let (s, buses) := s.mixBuses inputs
  (s.ringBlock buses ((b : Int) - 1), buses, egress)

/-! ## The boundary (R21) -/

/-- Steps 2 to 5 of R21 at the start of block `s.time.block`, with the units that act at a boundary. -/
def State.boundary (s : State) : State :=
  let s := s.ringBoundary.ownersTakeEffect.mdiRelease.commitsApply s.time.block
  let s := if s.rendersAll then s.objectsStep.ospTick else s.objectsStep
  let s := s.sceneStep.mdiTick.luvTicks
  let s := if s.rendersAll then s.renderAll else s
  s.inpBoundary.outBoundary

/-! ## The block that begins -/

/-- The output stage up to step 3; a standby computes its Damson outputs only (R352, R354). -/
def State.outputStage (s : State) (buses : Tab (List Int)) : State :=
  if s.rendersAll then s.outputFronts buses
  else
    let t := { s with pipe := { s.pipe with outPre := [] } }
    (s.outActive.filter s.isDamson).foldl (State.outputFront buses) t

/-- The ramp of R436 on the egress of the present block. -/
def State.quietEgress (s : State) (egress : Tab (List Int)) : Tab (List Int) :=
  if s.pwr.ramp == 0 then egress
  else egress.map fun e => (e.1, (List.range 32).map fun j => roundDiv (e.2.getD j 0 * s.quietAt j) 32)

/-- Egress presentation of a block: streams and serial ports take it (R14, R178). -/
def State.presentEgress (s : State) (egress : Tab (List Int)) : State :=
  let n := s.time.block
  let (s, out) := s.pairEgress n (s.quietEgress egress)
  let s := { s with pipe := { s.pipe with egress := out } }
  (s.keepDamson n out |>.txBlock n out).sapBlock n out

/-- The audio of the block that begins: the input stage on the samples presented in the block before, the output stage
on the sums of two blocks before, and egress. -/
def State.blockWork (s : State) (ran : Bool) (buses egress : Tab (List Int)) : State :=
  let n := s.time.block
  if !ran then s
  else
    let (s, net) := s.networkInputs (n - 1)
    let (s, ports) := s.portInputs (n - 1)
    let s := s.allocate.inputStage net ports
    (s.outputStage (s.ringBuses buses n)).presentEgress egress

/-- The acts of the test unit that fall in a block: a displaced tick, and delayed DRAM responses (R444). -/
def State.tstTick (s : State) : State :=
  let j : Int := s.rd F.TST_JIT_J
  let s := if j != 0 && s.drawIn .measure [1] (-j) j != 0 then s.count F.TST_CNT_JIT_V else s
  if s.on F.TST_DRAM_STALL then s.count F.TST_CNT_DRAM_V [] (s.draw .measure [2]) else s

/-! ## The row -/

/-- BLOCK_TICK. Without power, or while POR or a critical temperature holds the device, nothing ticks. -/
def State.blockTick (s : State) (phase : Int) : State :=
  if s.pwr.off || s.pwr.held || s.pwr.crit then s
  else
    let ran := s.audio
    let s := s.recordLocked
    let s := if ran && s.rendersAll then s.ospBlockEnd else s
    let (s, buses, egress) := if ran then s.finishBlock else (s, [], [])
    let s := s.advanceTime.clockTick phase
    let s := s.startAudio.clockOutputs
    let s := if s.awake then (s.ptpTick 0).ptpTick 1 else s
    let s := s.netTick
    let s := s.pwrTick
    let s := if s.running && s.awake then s.bypassTick.tstTick else s
    if s.audio then (s.boundary).blockWork ran buses egress else s

end Sys2Proof.Machine
end

