-- ==== Sys2Proof/Machine/CmdClock.lean ====
section
/-!
DEFINITION. The commands of the clock (R21, R30 to R46, R59, R461).
-/

namespace Sys2Proof.Machine

/-- BLOCK_TICK (R21): one block boundary. -/
def execBlockTick (phase : Int) (s : State) : Host.Outcome State Fault Refusal :=
  (s.blockTick phase).finish

/-- MEASUREMENT_WINDOW_END (R461): a window of a reference is judged. -/
def execMeasurementWindowEnd (n : Nat) (rate : Int) (s : State) : Host.Outcome State Fault Refusal :=
  (s.windowEnd n rate).finish

/-- REF_LOST (R41): the activity check of a reference fails. -/
def execRefLost (n : Nat) (s : State) : Host.Outcome State Fault Refusal :=
  (s.refLost n).finish

/-- REF_GLITCH (R42): a period lies outside its window. -/
def execRefGlitch (n : Nat) (s : State) : Host.Outcome State Fault Refusal :=
  (s.refGlitch n).finish

/-- WAIT_TO_RESTORE_END (R32): a reference that has waited qualifies. -/
def execWaitToRestoreEnd (n : Nat) (s : State) : Host.Outcome State Fault Refusal :=
  (s.wtrEnd n).finish

/-- REF_RISING_EDGE (R32): the period just ended is judged. -/
def execRefRisingEdge (edge : RefEdge) (period : Nat) (s : State) : Host.Outcome State Fault Refusal :=
  (s.refEdge edge.ref edge.port period).finish

/-- LOCK (R39): the steward has stayed within LOCKWIN for 1 s. -/
def execLock (s : State) : Host.Outcome State Fault Refusal :=
  s.lockNow.finish

/-- HO_OOS (R46): the holdover timer expires. -/
def execHoOos (s : State) : Host.Outcome State Fault Refusal :=
  s.hoOos.finish

/-- CLK_BLOCK_READ (R31): a 32-bit read of CLK_BLOCK_LO latches the upper half. -/
def execClkBlockRead (a : Access) (s : State) : Host.Outcome State Fault Refusal :=
  (s.hostRead a (R.CLK_BLOCK_LO.addr []) 4).finish

/-- TIME_SNAPSHOT_READ (R59): a read of a time snapshot latches its seconds. -/
def execTimeSnapshotRead (a : Access) (epoch : Bool) (port : Nat) (s : State) : Host.Outcome State Fault Refusal :=
  (if epoch then s.hostRead a (R.CLK_EPOCH_NS.addr []) 4
    else s.whenPort port (s.hostRead a (R.PTP_TIME_NS.addr [port]) 4)).finish

/-- A member holds ring time; where its counter starts with it, its audio starts. -/
def State.ringStarts (s : State) (block epoch : Nat) : State :=
  let t := s.ringTime block epoch
  if t.time.started && !s.time.started then t.audioStarts else t

/-- RING_TIME_HELD (R30): a member first holds ring time. -/
def execRingTimeHeld (block epoch : Nat) (s : State) : Host.Outcome State Fault Refusal :=
  (s.ringStarts block epoch).finish

end Sys2Proof.Machine
end

