-- ==== Sys2Proof/Machine/CmdCore.lean ====
section
/-!
DEFINITION. The host's accesses to the cores (R280 to R282).
-/

namespace Sys2Proof.Machine

/-- The window of a core (R280). -/
def coreWindow (c : Nat) : Nat := 0x2800000 + 0x80000 * c

/-- A host access to a core's memories; without a free cycle a running core loses one (R280). -/
def State.coreAccess (s : State) (a : Access) (c offset : Nat) (write : Option Nat) (freeCycle : Bool) : State :=
  let s := if !freeCycle && s.luvRuns c then s.setLuv c { s.luv c with issued := (s.luv c).issued + 1 } else s
  match write with
  | some v => s.hostWrite a (coreWindow c + offset) 4 v
  | none => s.hostRead a (coreWindow c + offset) 4

/-- DOORBELL (R282): a write of LDCc_DOORBELL.RING. -/
def execDoorbell (a : Access) (c : Nat) (s : State) : Host.Outcome State Fault Refusal :=
  (s.only (decide (c < 32)) (s.writeAction a R.LDCc_DOORBELL [c] 1)).finish

/-- PROGRAM_WRITE (R281): a write of a program word. -/
def execProgramWrite (a : Access) (c w value : Nat) (s : State) : Host.Outcome State Fault Refusal :=
  (s.only (decide (c < 32) && decide (w < 16384)) (s.hostWrite a (coreWindow c + 4 * w) 4 value)).finish

/-- CORE_MEMORY_ACCESS (R280): a host access to the memories of a core, which stalls it for one cycle where no free cycle came. -/
def execCoreMemoryAccess (a : Access) (c offset : Nat) (write : Option Nat) (freeCycle : Bool) (s : State) : Host.Outcome State Fault Refusal :=
  (s.only (decide (c < 32) && decide (offset < 0x80000)) (s.coreAccess a c offset write freeCycle)).finish

end Sys2Proof.Machine
end

