-- ==== Sys2Proof/Machine/CmdHost.lean ====
section
/-!
DEFINITION. The accesses of the hosts (R383 to R401).
-/

namespace Sys2Proof.Machine

/-- REGISTER_WRITE (R394): a host write. -/
def execRegisterWrite (a : Access) (addr size value : Nat) (s : State) : Host.Outcome State Fault Refusal :=
  (s.hostWrite a addr size value).finish

/-- SAFE_LOAD_WRITE (R235): a host write to a safe-loaded register, which outside a transaction commits alone. -/
def execSafeLoadWrite (a : Access) (addr value : Nat) (s : State) : Host.Outcome State Fault Refusal :=
  (s.hostWrite a addr 4 value).finish

/-- PCIE_REQUEST (R393): a request at BAR 0. -/
def execPcieRequest (offset : Nat) (enables : List Nat) (data : List Nat) (write : Bool) (s : State) : Host.Outcome State Fault Refusal :=
  (s.pcieRequest offset enables data write).finish

/-- SPI_FRAME (R386): a frame at the SPI target port. -/
def execSpiFrame (cmd addr : Nat) (data : List Nat) (s : State) : Host.Outcome State Fault Refusal :=
  (s.spiFrame cmd addr data).finish

/-- SPI_ABORT (R391): SPI_CSn rises inside a frame. -/
def execSpiAbort (s : State) : Host.Outcome State Fault Refusal :=
  s.spiAbort.finish

/-- PCIE_LINK_RESET (R391): the PCIe link is reset. -/
def execPcieLinkReset (s : State) : Host.Outcome State Fault Refusal :=
  s.pcieLinkReset.finish

/-- DRAIN_END (R391): the port of a reset master has drained. -/
def execDrainEnd (m : Nat) (s : State) : Host.Outcome State Fault Refusal :=
  (s.drainEnd m).finish

/-- DMA_GO (R399): a write of FAB_DMAd_CTRL.GO. -/
def execDmaGo (a : Access) (d : Nat) (s : State) : Host.Outcome State Fault Refusal :=
  (s.only (decide (d < 8)) (s.writeAction a R.FAB_DMAd_CTRL [d] 1)).finish

/-- DMA_ABORT (R399): a write of FAB_DMAd_CTRL.ABORT. -/
def execDmaAbort (a : Access) (d : Nat) (s : State) : Host.Outcome State Fault Refusal :=
  (s.only (decide (d < 8)) (s.writeAction a R.FAB_DMAd_CTRL [d] 2)).finish

/-- DMA_DONE (R399): a copy of a DMA engine ends. -/
def execDmaDone (d : Nat) (s : State) : Host.Outcome State Fault Refusal :=
  (s.only (decide (d < 8)) (s.dmaDone d)).finish

/-- IRQ_EOI (R401): a write of IRQ_EOI. -/
def execIrqEoi (a : Access) (value : Nat) (s : State) : Host.Outcome State Fault Refusal :=
  (s.hostWrite a (R.IRQ_EOI.addr []) 4 value).finish

/-- TST_WRITE (R443): a write to the test unit. -/
def execTstWrite (a : Access) (addr value : Nat) (s : State) : Host.Outcome State Fault Refusal :=
  (s.only (tstWindow addr) (s.hostWrite a addr 4 value)).finish

end Sys2Proof.Machine
end

