-- ==== Sys2Proof/Machine/CmdLuveren.lean ====
section
/-!
DEFINITION. The commands of the Luveren cores: each executes one instruction where it stands at the program counter of a
running core (R284, R291 to R309), or is an event of a core.
-/

namespace Sys2Proof.Machine

/-! ## What several instructions compute -/

/-- The register an address immediate writes. -/
def lateReg (f : AFile) (n : AReg) : LateReg :=
  match f with
  | .p => .p n
  | .u => .u n
  | .e => .e n

/-- An accumulator as an instruction other than a multiply-accumulate reads it: two instructions old (R273, R301). -/
def LuvSet.accView (r : LuvSet) (j : WReg) : Int := (r.w2.get j).toInt

/-- An accumulator rounded with a shift, before saturation (R302), and whether it saturates. -/
def LuvSet.rounded (r : LuvSet) (j : WReg) (sh : Int) : Int := rndValue (r.accView j) sh

def LuvSet.roundSat (r : LuvSet) (j : WReg) (sh : Int) : Bool := decide (sat24 (r.rounded j sh) ≠ r.rounded j sh)

/-- The accumulators of a mask become 0. -/
def LuvSet.clearAcc (r : LuvSet) (mask : BitVec 4) : LuvSet :=
  (List.range 4).foldl (fun t j => if mask.getLsbD j then t.setW (wreg j) 0 else t) r

/-! ## The commands -/

/-- NOP (R308): nothing but the passing of an instruction. -/
def execLuvNop (c : Nat) (s : State) : Host.Outcome State Fault Refusal :=
  (s.luvSet c (.luvNop c) fun _ t => t).finish

/-- WAITBLK (R284): the block ends once the queue is empty. -/
def execLuvWaitblk (c : Nat) (s : State) : Host.Outcome State Fault Refusal :=
  (s.luvWaitStep c (.luvWaitblk c)).finish

/-- SYNC (R278): waits until at most `n` accesses are outstanding. -/
def execLuvSync (c : Nat) (n : Fin 4) (s : State) : Host.Outcome State Fault Refusal :=
  (s.luvSyncStep c (.luvSync c n) n.val).finish

/-- RTI (R282): the return from a handler. -/
def execLuvRti (c : Nat) (s : State) : Host.Outcome State Fault Refusal :=
  (s.luvRtiStep c (.luvRti c)).finish

/-- B (R306): branches when the condition holds. -/
def execLuvB (c : Nat) (cond : Cond) (target : BitVec 14) (s : State) : Host.Outcome State Fault Refusal :=
  (s.luvStep c (.luvB c cond target) (luvBranch cond target)).finish

/-- CALL (R307): calls when the condition holds. -/
def execLuvCall (c : Nat) (cond : Cond) (target : BitVec 14) (s : State) : Host.Outcome State Fault Refusal :=
  (s.luvStep c (.luvCall c cond target) (luvCallTo cond target)).finish

/-- RET (R307): returns when the condition holds. -/
def execLuvRet (c : Nat) (cond : Cond) (s : State) : Host.Outcome State Fault Refusal :=
  (s.luvStep c (.luvRet c cond) (luvReturn cond)).finish

/-- LDI (R299): the immediate goes to a v register; no flags. -/
def execLuvLdi (c : Nat) (d : VReg) (imm : BitVec 24) (s : State) : Host.Outcome State Fault Refusal :=
  (s.luvSet c (.luvLdi c d imm) fun _ t => t.setV d imm).finish

/-- LDIA (R303): the immediate goes to an address register after two slots. -/
def execLuvLdia (c : Nat) (file : AFile) (n : AReg) (imm : BitVec 18) (s : State) : Host.Outcome State Fault Refusal :=
  (s.luvSet c (.luvLdia c file n imm) fun _ t => t.after 2 (lateReg file n) imm.toNat).finish

/-- MODI (R303): a pointer moves by a signed step. -/
def execLuvModi (c : Nat) (n : AReg) (imm : BitVec 18) (s : State) : Host.Outcome State Fault Refusal :=
  (s.luvSet c (.luvModi c n imm) fun r t => t.modify r n imm.toInt).finish

/-- MOV (R299): b; no flags. -/
def execLuvMov (c : Nat) (dd : VReg) (b : AluB) (s : State) : Host.Outcome State Fault Refusal :=
  (s.luvSet c (.luvMov c dd b) fun r t => t.setV dd (r.aluB b)).finish

/-- ADD (R299): sat(a + b). -/
def execLuvAdd (c : Nat) (dd da : VReg) (b : AluB) (s : State) : Host.Outcome State Fault Refusal :=
  (s.luvSet c (.luvAdd c dd da b) fun r t => t.aluSat dd (r.vS da + (r.aluB b).toInt)).finish

/-- SUB (R299): sat(a − b). -/
def execLuvSub (c : Nat) (dd da : VReg) (b : AluB) (s : State) : Host.Outcome State Fault Refusal :=
  (s.luvSet c (.luvSub c dd da b) fun r t => t.aluSat dd (r.vS da - (r.aluB b).toInt)).finish

/-- ADDW (R299): a + b modulo 2^24. -/
def execLuvAddw (c : Nat) (dd da : VReg) (b : AluB) (s : State) : Host.Outcome State Fault Refusal :=
  (s.luvSet c (.luvAddw c dd da b) fun r t => t.aluBits dd (r.v.get da + r.aluB b)).finish

/-- SUBW (R299): a − b modulo 2^24. -/
def execLuvSubw (c : Nat) (dd da : VReg) (b : AluB) (s : State) : Host.Outcome State Fault Refusal :=
  (s.luvSet c (.luvSubw c dd da b) fun r t => t.aluBits dd (r.v.get da - r.aluB b)).finish

/-- NEG (R299): sat(−a). -/
def execLuvNeg (c : Nat) (dd da : VReg) (s : State) : Host.Outcome State Fault Refusal :=
  (s.luvSet c (.luvNeg c dd da) fun r t => t.aluSat dd (-(r.vS da))).finish

/-- ABS (R299): sat(|a|). -/
def execLuvAbs (c : Nat) (dd da : VReg) (s : State) : Host.Outcome State Fault Refusal :=
  (s.luvSet c (.luvAbs c dd da) fun r t => t.aluSat dd ((r.vS da).natAbs : Int)).finish

/-- AND (R299): a AND b. -/
def execLuvAnd (c : Nat) (dd da : VReg) (b : AluB) (s : State) : Host.Outcome State Fault Refusal :=
  (s.luvSet c (.luvAnd c dd da b) fun r t => t.aluBits dd (r.v.get da &&& r.aluB b)).finish

/-- OR (R299): a OR b. -/
def execLuvOr (c : Nat) (dd da : VReg) (b : AluB) (s : State) : Host.Outcome State Fault Refusal :=
  (s.luvSet c (.luvOr c dd da b) fun r t => t.aluBits dd (r.v.get da ||| r.aluB b)).finish

/-- XOR (R299): a XOR b. -/
def execLuvXor (c : Nat) (dd da : VReg) (b : AluB) (s : State) : Host.Outcome State Fault Refusal :=
  (s.luvSet c (.luvXor c dd da b) fun r t => t.aluBits dd (r.v.get da ^^^ r.aluB b)).finish

/-- NOT (R299): NOT a. -/
def execLuvNot (c : Nat) (dd da : VReg) (s : State) : Host.Outcome State Fault Refusal :=
  (s.luvSet c (.luvNot c dd da) fun r t => t.aluBits dd (~~~(r.v.get da))).finish

/-- ASL (R299): sat(a × 2^c). -/
def execLuvAsl (c : Nat) (dd da : VReg) (b : ShiftB) (s : State) : Host.Outcome State Fault Refusal :=
  (s.luvSet c (.luvAsl c dd da b) fun r t => t.aluSat dd (r.vS da * ((2 ^ r.shiftB b : Nat) : Int))).finish

/-- ASR (R299): floor(a / 2^c). -/
def execLuvAsr (c : Nat) (dd da : VReg) (b : ShiftB) (s : State) : Host.Outcome State Fault Refusal :=
  (s.luvSet c (.luvAsr c dd da b) fun r t => t.aluBits dd (BitVec.ofInt 24 (r.vS da / ((2 ^ r.shiftB b : Nat) : Int)))).finish

/-- LSR (R299): a shifted right, zeros in. -/
def execLuvLsr (c : Nat) (dd da : VReg) (b : ShiftB) (s : State) : Host.Outcome State Fault Refusal :=
  (s.luvSet c (.luvLsr c dd da b) fun r t => t.aluBits dd (r.v.get da >>> r.shiftB b)).finish

/-- MIN (R299): the signed minimum. -/
def execLuvMin (c : Nat) (dd da : VReg) (b : AluB) (s : State) : Host.Outcome State Fault Refusal :=
  (s.luvSet c (.luvMin c dd da b) fun r t => t.aluBits dd (BitVec.ofInt 24 (min (r.vS da) (r.aluB b).toInt))).finish

/-- MAX (R299): the signed maximum. -/
def execLuvMax (c : Nat) (dd da : VReg) (b : AluB) (s : State) : Host.Outcome State Fault Refusal :=
  (s.luvSet c (.luvMax c dd da b) fun r t => t.aluBits dd (BitVec.ofInt 24 (max (r.vS da) (r.aluB b).toInt))).finish

/-- CMP (R299): Z and N of the exact a − b, V 0; no register. -/
def execLuvCmp (c : Nat) (da : VReg) (b : AluB) (s : State) : Host.Outcome State Fault Refusal :=
  (s.luvSet c (.luvCmp c da b) fun r t => t.flagsZNV (r.vS da - (r.aluB b).toInt) false).finish

/-- SEL (R299): a when the condition holds, otherwise b. -/
def execLuvSel (c : Nat) (dd da db : VReg) (cond : Cond) (s : State) : Host.Outcome State Fault Refusal :=
  (s.luvSet c (.luvSel c dd da db cond) fun r t => t.setV dd (if condHolds cond r.fw1 then r.v.get da else r.v.get db)).finish

/-- LD (R297): a word of the data space goes to a v register. -/
def execLuvLd (c : Nat) (d : VReg) (p : AReg) (m : PostMod) (s : State) : Host.Outcome State Fault Refusal :=
  (s.luvMem c (.luvLd c d p m) p fun s x => s.luvLoad c x d p m).finish

/-- ST (R297): a v register goes to a word, its sign extended. -/
def execLuvSt (c : Nat) (d : VReg) (p : AReg) (m : PostMod) (s : State) : Host.Outcome State Fault Refusal :=
  (s.luvMem c (.luvSt c d p m) p fun s x => s.luvStore c x p m (sampleWord (x.set.vS d)) id).finish

/-- STR (R297): an accumulator, rounded and saturated, goes to a word. -/
def execLuvStr (c : Nat) (j : WReg) (p : AReg) (m : PostMod) (sh : BitVec 3) (s : State) : Host.Outcome State Fault Refusal :=
  (s.luvMem c (.luvStr c j p m sh) p fun s x =>
    s.luvStore c x p m (sampleWord (sat24 (x.set.rounded j sh.toInt))) (·.flagsV (x.set.roundSat j sh.toInt))).finish

/-- CLR (R301): clears the accumulators of the mask. -/
def execLuvClr (c : Nat) (mask : BitVec 4) (s : State) : Host.Outcome State Fault Refusal :=
  (s.luvSet c (.luvClr c mask) fun _ t => t.clearAcc mask).finish

/-- RND (R301): an accumulator rounded to a v register. -/
def execLuvRnd (c : Nat) (d : VReg) (j : WReg) (sh : BitVec 6) (s : State) : Host.Outcome State Fault Refusal :=
  (s.luvSet c (.luvRnd c d j sh) fun r t =>
    (t.setV d (BitVec.ofInt 24 (sat24 (r.rounded j sh.toInt)))).flagsV (r.roundSat j sh.toInt)).finish

/-- TRN (R301): an accumulator truncated to a v register. -/
def execLuvTrn (c : Nat) (d : VReg) (j : WReg) (sh : BitVec 6) (s : State) : Host.Outcome State Fault Refusal :=
  (s.luvSet c (.luvTrn c d j sh) fun r t =>
    let v := trnValue (r.accView j) sh.toInt
    (t.setV d (BitVec.ofInt 24 (sat24 v))).flagsV (decide (sat24 v ≠ v))).finish

/-- LDA (R301): a v register times 2^23 goes to an accumulator. -/
def execLuvLda (c : Nat) (j : WReg) (d : VReg) (s : State) : Host.Outcome State Fault Refusal :=
  (s.luvSet c (.luvLda c j d) fun r t => t.setW j (BitVec.ofInt 56 (r.vS d * 8388608))).finish

/-- ADDA (R301): the sum of two accumulators, saturated. -/
def execLuvAdda (c : Nat) (j k : WReg) (s : State) : Host.Outcome State Fault Refusal :=
  (s.luvSet c (.luvAdda c j k) fun r t => t.accSat j (r.accView j + r.accView k)).finish

/-- SUBA (R301): the difference of two accumulators, saturated. -/
def execLuvSuba (c : Nat) (j k : WReg) (s : State) : Host.Outcome State Fault Refusal :=
  (s.luvSet c (.luvSuba c j k) fun r t => t.accSat j (r.accView j - r.accView k)).finish

/-- SHA (R301): an accumulator times 2^SH. -/
def execLuvSha (c : Nat) (j : WReg) (sh : BitVec 6) (s : State) : Host.Outcome State Fault Refusal :=
  (s.luvSet c (.luvSha c j sh) fun r t =>
    let f := shifted (r.accView j) sh.toInt
    t.accSat j (f.1 / (f.2 : Int))).finish

/-- MOVA (R301): an accumulator goes to another. -/
def execLuvMova (c : Nat) (j k : WReg) (s : State) : Host.Outcome State Fault Refusal :=
  (s.luvSet c (.luvMova c j k) fun r t => t.setW j (r.w2.get k)).finish

/-- REP (R305): the next word runs `n` times. -/
def execLuvRep (c : Nat) (n : RepCount) (s : State) : Host.Outcome State Fault Refusal :=
  (s.luvRepStep c (.luvRep c n) n).finish

/-- MOVR (R304): a move between register files. -/
def execLuvMovr (c : Nat) (dst src : MovReg) (s : State) : Host.Outcome State Fault Refusal :=
  (s.luvSet c (.luvMovr c dst src) fun r t => t.movWrite dst (r.movSource src)).finish

/-- MPY (R293): accumulators replaced by the products. -/
def execLuvMpy (c : Nat) (o : MacOps) (s : State) : Host.Outcome State Fault Refusal :=
  (s.luvStep c (.luvMpy c o) fun s x => s.luvMultiply c 0 o x).finish

/-- MAC (R293): accumulators plus the products. -/
def execLuvMac (c : Nat) (o : MacOps) (s : State) : Host.Outcome State Fault Refusal :=
  (s.luvStep c (.luvMac c o) fun s x => s.luvMultiply c 1 o x).finish

/-- MSU (R293): accumulators minus the products. -/
def execLuvMsu (c : Nat) (o : MacOps) (s : State) : Host.Outcome State Fault Refusal :=
  (s.luvStep c (.luvMsu c o) fun s x => s.luvMultiply c 2 o x).finish

/-- ILLEGAL (R292): the core halts where the word at its program counter is illegal there. -/
def execLuvIllegal (c : Nat) (s : State) : Host.Outcome State Fault Refusal :=
  (s.luvIllegalStep c).finish

/-- FABRIC_LOAD_RETURN (R277): the oldest access of the queue, a load, returns its word, or 0 on a bus error. -/
def execFabricLoadReturn (c : Nat) (s : State) : Host.Outcome State Fault Refusal :=
  (s.luvLoadReturn c).finish

/-- FABRIC_STORE_DONE (R277): the fabric accepts the oldest access of the queue, a store. -/
def execFabricStoreDone (c : Nat) (s : State) : Host.Outcome State Fault Refusal :=
  (s.luvStoreDone c).finish

/-- INTERRUPT (R282): a pending, enabled source is taken at an instruction boundary. -/
def execInterrupt (c : Nat) (s : State) : Host.Outcome State Fault Refusal :=
  (s.luvInterrupt c).finish

/-- TIMER (R282): the timer of a core reaches 0. -/
def execTimer (c : Nat) (s : State) : Host.Outcome State Fault Refusal :=
  (s.luvTimerEnd c).finish

end Sys2Proof.Machine
end

