-- ==== Sys2Proof/Machine/CmdMix.lean ====
section
/-!
DEFINITION. The commands of the renderer, the mix fabric, the output stage and the convolution engine (R219, R220, R230, R233, R256 to R259).
-/

namespace Sys2Proof.Machine

/-- SWAP_DONE (R219): a layout crossfade ends. -/
def execSwapDone (s : State) : Host.Outcome State Fault Refusal :=
  s.swapEnd.finish

/-- LAYOUT_TABLE_WRITE (R220): a write to a table of a layout. -/
def execLayoutTableWrite (a : Access) (addr value : Nat) (s : State) : Host.Outcome State Fault Refusal :=
  (s.hostWrite a addr 4 value).finish

/-- GHOST_RELEASE (R230): the old route of a crosspoint has reached 0. -/
def execGhostRelease (x : Nat) (s : State) : Host.Outcome State Fault Refusal :=
  (s.ghostRelease x).finish

/-- ROUTE_RELEASE (R230): a route that is released has reached 0. -/
def execRouteRelease (x : Nat) (s : State) : Host.Outcome State Fault Refusal :=
  (s.routeRelease x).finish

/-- DELAY_XFADE_END (R233): a delay crossfade has passed its 960 samples. -/
def execDelayXfadeEnd (kind n : Nat) (s : State) : Host.Outcome State Fault Refusal :=
  (s.delayXfadeEnd kind n).finish

/-- XF_DONE (R256): a filter crossfade has passed its 1,024 samples. -/
def execXfDone (out : Nat) (s : State) : Host.Outcome State Fault Refusal :=
  (s.xfDone out).finish

/-- STAGE_GO (R259): a write of CNV_STAGE_CTRL with GO. -/
def execStageGo (a : Access) (value : Nat) (s : State) : Host.Outcome State Fault Refusal :=
  (s.hostWrite a (R.CNV_STAGE_CTRL.addr []) 4 (value ||| 1)).finish

/-- STAGE_DONE (R259): a staging job ends. -/
def execStageDone (s : State) : Host.Outcome State Fault Refusal :=
  s.stageDone.finish

/-- COEF_WRITE (R258): a write to the coefficient store. -/
def execCoefWrite (a : Access) (addr size value : Nat) (s : State) : Host.Outcome State Fault Refusal :=
  (s.hostWrite a addr size value).finish

end Sys2Proof.Machine
end

