-- ==== Sys2Proof/Machine/Frames.lean ====
section
/-!
DEFINITION. Received frames: the length and FCS check (R70), VLAN acceptance (R75), classification (R76), wake patterns
(R86) and the frame perturbations of the test unit (R444).
-/

namespace Sys2Proof.Machine

/-! ## Length and FCS (R69, R70) -/

/-- The tags that count for a frame's length: 0x8100, or 0x88A8 in the outer position; two at most (R69). -/
def vlanCount : List VlanTag → Nat
  | [] => 0
  | t :: rest =>
    if t.tpid != 0x8100 && t.tpid != 0x88A8 then 0
    else match rest with
      | u :: _ => if u.tpid == 0x8100 then 2 else 1
      | [] => 1

/-- The counter of a frame that R70 drops: its length against 64 and L, its FCS, an error character; none: accepted. -/
def frameDrop (f : Frame) (limit : Nat) : Option Nat :=
  if f.codeErr then some 19
  else if f.len < 64 then some (if f.fcsGood then 15 else 16)
  else if limit < f.len then some (if f.fcsGood then 17 else 18)
  else if f.fcsGood then none else some 14

/-! ## Address and VLAN acceptance (R75, R76 order 1) -/

/-- The destination address is a joined multicast group, or the group address of 802.1AS in use (R49). -/
def State.joinedMac (s : State) (p dst : Nat) : Bool :=
  ((s.groups p).any fun g => isGroup g && groupMac g == dst)
    || (s.rd F.PTP_CTRL_MODE [p] != 0 && s.rd F.PTP_CTRL_PROFILE [p] == 1 && dst == 0x0180C200000E)

/-- A stream packet that an enabled receive context matches. -/
def State.streamFrame (s : State) (p : Nat) (f : Frame) : Bool :=
  match f.payload with
  | .avtp k => (s.rxMatch p k).isSome
  | .ipv4 _ false false (.rtp k) => (s.rxMatch p k).isSome
  | _ => false

/-- A frame passes order 1 of R76. The group addresses of flow control and of the AVTP streams that contexts match, which no register
names, count as joined (log entry 166). -/
def State.addressed (s : State) (p : Nat) (f : Frame) : Bool :=
  s.on F.NP_CFG_PROMISC [p] || f.dst == s.macAddr p || f.dst == 2 ^ 48 - 1 || s.joinedMac p f.dst
    || (match f.payload with
      | .avtp _ => f.dst / 2 ^ 40 % 2 == 1 && s.streamFrame p f
      | .pause _ => f.dst == 0x0180C2000001
      | .pfc _ _ => f.dst == 0x0180C2000001
      | _ => false)

/-- A tagged frame is accepted by its outer VID (R75). -/
def State.vlanAccepts (s : State) (p : Nat) (f : Frame) : Bool :=
  match f.tags with
  | [] => true
  | t :: _ =>
    t.vid == 0 || (s.rxVids p).contains t.vid
      || (List.range 4).any fun q => s.on F.NP_HQ_VLANq_RX_EN [p, q] && s.rd F.NP_HQ_VLANq_VID [p, q] == t.vid

/-! ## Host receive queues (R76 order 7, R77, R398) -/

/-- The lowest-numbered enabled host receive queue that a frame matches. -/
def State.hostQueue (s : State) (p : Nat) (f : Frame) : Option Nat :=
  (List.range 4).find? fun q => s.on F.NP_HQ_VLANq_RX_EN [p, q] && match f.tags with
    | [] => s.on F.NP_HQ_VLANq_UNTAGGED [p, q]
    | t :: _ => s.rd F.NP_HQ_VLANq_VID [p, q] == t.vid

/-- A frame reaches order 7 or 8 of R76: a matching host queue with its stamp and stripped tag, or RX_FILTERED. -/
def State.toHost (s : State) (p : Nat) (f : Frame) : State :=
  match s.hostQueue p f with
  | none => s.macCount p 21
  | some q =>
    let strip := s.on F.NP_HQ_VLANq_STRIP [p, q] && !f.tags.isEmpty
    let bytes := if strip then f.bytes.take 12 ++ f.bytes.drop 16 else f.bytes
    let s := s.countStamp p
    if s.awake && !s.fab.drains.contains (queueMaster p) then
      s.hostReceive p q bytes (if strip then f.tags.head? else none) (stampNs (s.ingress p f.stamp) % 2 ^ 32)
    else (s.macCount p 20).raise F.NP_EVT_RX_NOBUF [p]

/-! ## Classification (R76) -/

/-- A PTP message for the port's profile at its address: layer 2 in 802.1AS, UDP in the IPv4 profile, peer delay messages at a group
of their own, event messages on port 319 and the others on 320 (R49). -/
def State.ptpFrame (s : State) (p : Nat) (f : Frame) : Option PtpMsg :=
  if s.rd F.PTP_CTRL_MODE [p] == 0 then none
  else match f.payload with
    | .ptpL2 m => if s.rd F.PTP_CTRL_PROFILE [p] == 1 && f.dst == 0x0180C200000E then some m else none
    | .ipv4 ip false false (.ptp udp m) =>
      let peer := m.msgType == 2 || m.msgType == 3 || m.msgType == 10
      if s.rd F.PTP_CTRL_PROFILE [p] == 0 && ip == (if peer then 0xE000006B else 0xE0000181)
        && udp == (if m.msgType < 8 then 319 else 320) then some m else none
    | _ => none

/-- UDP to the OSP port of an enabled engine on this network port. -/
def State.ospFrame (s : State) (p : Nat) (f : Frame) : Bool :=
  s.on F.OSP_CTRL_EN && s.rd F.OSP_CTRL_PORTS / 2 ^ p % 2 == 1 && match f.payload with
    | .ipv4 _ false false (.udp d) => d == s.rd F.OSP_CTRL_UDP
    | _ => false

/-- An IPv4 frame that orders 4 to 6 drop: a fragment, a bad header checksum, IGMP version 1 or 2. -/
def ipDropped (f : Frame) : Bool :=
  match f.payload with
  | .ipv4 _ frag bad body => frag || bad || (match body with | .igmp v => v != 3 | _ => false)
  | _ => false

/-- The frame is for an enabled responder of the port: ARP, an echo request to the port's address, IGMP version 3. -/
def State.responderFrame (s : State) (p : Nat) (f : Frame) : Bool :=
  match f.payload with
  | .arp _ => s.responder p F.NP_RESP_ARP_EN
  | .ipv4 dst false false (.icmpEcho _ _ _) => s.responder p F.NP_RESP_ICMP_EN && dst == s.rd F.NP_IPV4_V [p]
  | .ipv4 _ false false (.igmp 3) => s.responder p F.NP_RESP_IGMP_EN
  | _ => false

/-- Flow control takes a PAUSE or a priority flow-control frame (R80). -/
def State.flowFrame (s : State) (p : Nat) (f : Frame) : Option State :=
  match f.payload with
  | .pause q => some ((s.macCount p 5).flowControl p 8 q)
  | .pfc en qs =>
    let prios := (List.range 8).filter fun k => en / 2 ^ k % 2 == 1
    some (prios.foldl (fun s k => s.flowControl p k (qs.getD k 0)) (s.macCount p 5))
  | _ => none

/-- A frame waits in the receive buffer for the engine of its order in R76; a full buffer drops it (R77). -/
def State.rxHold (s : State) (p order len : Nat) : State :=
  match s.rxPut p order len with
  | some t => t
  | none => (s.macCount p 20).raise F.NP_EVT_RX_NOBUF [p]

/-- An accepted frame goes to the first destination that it matches (R75, R76). The stream engine, the session engine and
the responders take it from the receive buffer by their own rows (log entry 165). -/
def State.classify (s : State) (p : Nat) (f : Frame) : State :=
  if !s.vlanAccepts p f || !s.addressed p f then s.macCount p 21
  else match s.flowFrame p f with
  | some t => t
  | none => match s.ptpFrame p f with
    | some m => s.ptpEnqueue p m
    | none =>
      if ipDropped f then s.macCount p 23
      else if s.streamFrame p f then s.rxHold p 4 f.len
      else if s.ospFrame p f then s.rxHold p 5 f.len
      else if s.responderFrame p f then s.rxHold p 6 f.len
      else s.toHost p f

/-! ## The frame perturbations (R444) -/

/-- MODE, MATCH and N of a port's frame control. -/
def State.frmMode (s : State) (p : Nat) : Nat := if p == 0 then s.rd F.TST_FRMA_MODE else s.rd F.TST_FRMB_MODE
def State.frmMatch (s : State) (p : Nat) : Nat := if p == 0 then s.rd F.TST_FRMA_MATCH else s.rd F.TST_FRMB_MATCH
def State.frmPeriod (s : State) (p : Nat) : Nat := if p == 0 then s.rd F.TST_FRMA_N else s.rd F.TST_FRMB_N

/-- The frame counts towards N of the port's control. -/
def State.frmCounts (s : State) (p : Nat) (f : Frame) : Bool :=
  match s.frmMatch p with
  | 0 => true
  | 1 => (s.ptpFrame p f).isSome
  | 2 => s.streamFrame p f
  | _ => s.ospFrame p f

/-- The frame that MODE 3 holds is delivered. -/
def State.releaseHeld (s : State) (p : Nat) : State :=
  match s.tst.held.lookup p with
  | none => s
  | some (f, _) =>
    ({ s with tst := { s.tst with held := Tab.put s.tst.held p none } } : State).classify p f

/-- A frame accepted by R70 passes the test unit to R76. -/
def State.perturb (s : State) (p : Nat) (f : Frame) : State :=
  if s.frmMode p == 0 || !s.frmCounts p f then s.classify p f
  else
    let n := Tab.get 0 s.tst.n p + 1
    let hit := decide (s.frmPeriod p ≤ n)
    let s := { s with tst := { s.tst with n := Tab.set 0 s.tst.n p (if hit then 0 else n) } }
    if !hit then (s.classify p f).releaseHeld p
    else match s.frmMode p with
      | 1 => s.count F.TST_CNT_DROP_V
      | 2 => ((s.classify p f).classify p f).count F.TST_CNT_DUP_V
      | _ =>
        let s := (s.releaseHeld p).count F.TST_CNT_SWAP_V
        { s with tst := { s.tst with held := Tab.put s.tst.held p (some (f, s.upNow3)) } }

/-- HELD_FRAME_RELEASE: no further matching frame came within 1 ms. -/
def State.heldFrame (s : State) (p : Nat) : State :=
  match s.tst.held.lookup p with
  | none => s
  | some (_, since3) => if s.elapsed since3 3000000 then s.releaseHeld p else s

/-! ## Wake patterns (R86) -/

/-- One bit of the CRC-16 of R86: polynomial 0x1021, most significant bit first. -/
def wakeCrcBit (c : Nat) (b : Bool) : Nat :=
  let top := (c / 32768 % 2 == 1) != b
  let c := c * 2 % 65536
  if top then c ^^^ 0x1021 else c

/-- The CRC-16 over bytes. -/
def wakeCrc (bs : List Byte) : Nat :=
  bs.foldl (fun c b => (List.range 8).foldl (fun c i => wakeCrcBit c (b.getLsbD (7 - i))) c) 0xFFFF

/-- The positions of the window that pattern `n` selects. -/
def State.wakeBytes (s : State) (p n : Nat) : List Nat :=
  (List.range 128).filter fun j => s.rd F.NP_WAKEn_MASKk_V [p, n, j / 32] / 2 ^ (j % 32) % 2 == 1

/-- Pattern `n` of a port matches a frame. -/
def State.wakeMatches (s : State) (p n : Nat) (bytes : List Byte) : Bool :=
  let js := s.wakeBytes p n
  let ofs := s.rd F.NP_WAKEn_CFG_OFFSET [p, n]
  s.on F.NP_WAKEn_CFG_EN [p, n] && !js.isEmpty && js.all (fun j => decide (ofs + j < bytes.length))
    && wakeCrc (js.map fun j => bytes.getD (ofs + j) 0) == s.rd F.NP_WAKEn_CFG_CHECK [p, n]

/-- A frame in STANDBY: order 1 of R76, then the wake patterns; it is not kept. -/
def State.standbyFrame (s : State) (p : Nat) (f : Frame) : State :=
  if !s.addressed p f then s.macCount p 21
  else if (List.range 8).any fun n => s.wakeMatches p n f.bytes then
    let s := s.raise F.NP_EVT_WAKE_MATCH [p]
    if s.on F.SYS_WAKE_PAT_EN then s.wakeEvent else s
  else s

/-! ## The row -/

/-- FRAME_RECEIVE. -/
def State.frameIn (s : State) (p : Nat) (f : Frame) : State :=
  if !(decide (p < 2) && s.linkUp p) then s
  else match frameDrop f (s.lengthLimit p (vlanCount f.tags)) with
  | some i => s.macCount p i
  | none =>
    let s := s.countFrame p true f.dst f.len (!f.tags.isEmpty)
    if s.rd F.SYS_STAT_PWR == 2 then s.standbyFrame p f else s.perturb p f

end Sys2Proof.Machine
end

