-- ==== Sys2Proof/Machine/CmdNet.lean ====
section
/-!
DEFINITION. The commands of the network ports (R68 to R86, R398).
-/

namespace Sys2Proof.Machine

/-- LINK_UP (R68): the link of a port comes up. -/
def execLinkUp (port : Nat) (s : State) : Host.Outcome State Fault Refusal :=
  (s.whenPort port (s.linkRises port)).finish

/-- LINK_DOWN (R68): the link of a port goes down. -/
def execLinkDown (port : Nat) (s : State) : Host.Outcome State Fault Refusal :=
  (s.whenPort port (s.linkFalls port)).finish

/-- FRAME_RECEIVE (R70): a frame is received. -/
def execFrameReceive (port : Nat) (f : Frame) (s : State) : Host.Outcome State Fault Refusal :=
  (s.whenPort port (s.frameIn port f)).finish

/-- PAUSE_EXPIRY (R80): the requested pause of a priority ends. -/
def execPauseExpiry (port prio : Nat) (s : State) : Host.Outcome State Fault Refusal :=
  (s.whenPort port (s.pauseEnds port prio)).finish

/-- COUNTER_READ (R84): a read of a MAC counter latches its upper word. -/
def execCounterRead (a : Access) (port i : Nat) (s : State) : Host.Outcome State Fault Refusal :=
  (s.whenPort port (s.hostRead a (R.NP_CNTi_LO.addr [port, i]) 4)).finish

/-- TAIL_WRITE (R398): a write of NP_HRr_TAIL. -/
def execTailWrite (a : Access) (port ring value : Nat) (s : State) : Host.Outcome State Fault Refusal :=
  (s.whenPort port (s.hostWrite a (R.NP_HRr_TAIL.addr [port, ring]) 4 value)).finish

/-- HOST_TRANSMIT (R72): the device takes the next host frame of a queue. -/
def execHostTransmit (port queue : Nat) (s : State) : Host.Outcome State Fault Refusal :=
  (s.whenPort port (if s.awake && !s.fab.drains.contains (queueMaster port) then s.hostTransmit port queue else s)).finish

/-- TX_DONE (R398): a host frame reaches the medium. -/
def execTxDone (port queue launch : Nat) (s : State) : Host.Outcome State Fault Refusal :=
  (s.whenPort port (s.txDone port queue launch)).finish

/-- FLUSHED (R73): a write that clears TX_EN of a queue. -/
def execFlushed (a : Access) (port queue : Nat) (s : State) : Host.Outcome State Fault Refusal :=
  (s.whenPort port (s.writeClear a R.NP_HQ_VLANq [port, queue] 0x40000000)).finish

/-- ARP_REQUEST (R83): an ARP request is received. -/
def execArpRequest (port : Nat) (p : ArpPkt) (s : State) : Host.Outcome State Fault Refusal :=
  (s.whenPort port ((s.rxTake port 6).rxArpRequest port p)).finish

/-- ARP_REPLY (R83): an ARP reply is received. -/
def execArpReply (port : Nat) (p : ArpPkt) (s : State) : Host.Outcome State Fault Refusal :=
  (s.whenPort port ((s.rxTake port 6).rxArpReply port p)).finish

/-- GRATUITOUS_ANNOUNCEMENT (R83): an announcement after a link-up. -/
def execGratuitousAnnouncement (port : Nat) (s : State) : Host.Outcome State Fault Refusal :=
  (s.whenPort port (s.announceArp port)).finish

/-- ARP_AGE_OUT (R83): an entry of the ARP cache ages out. -/
def execArpAgeOut (port ip : Nat) (s : State) : Host.Outcome State Fault Refusal :=
  (s.whenPort port (s.arpAge port ip)).finish

/-- ARP_RETRY (R83): an unresolved destination is requested again. -/
def execArpRetry (port ip : Nat) (s : State) : Host.Outcome State Fault Refusal :=
  (s.whenPort port (s.arpRetry port ip)).finish

/-- ICMP_ECHO (R83): an echo request is received. -/
def execIcmpEcho (port srcIp ident seq : Nat) (data : List Byte) (s : State) : Host.Outcome State Fault Refusal :=
  (s.whenPort port ((s.rxTake port 6).rxEcho port srcIp ident seq data)).finish

/-- IGMP_QUERY (R83): an IGMP query is received; its report is due within its maximum response time. -/
def execIgmpQuery (port _maxRespMs : Nat) (s : State) : Host.Outcome State Fault Refusal :=
  (s.whenPort port ((s.rxTake port 6).rxIgmpQuery port)).finish

/-- IGMP_REPORT (R83): the report that a query drew. -/
def execIgmpReport (port : Nat) (s : State) : Host.Outcome State Fault Refusal :=
  (s.whenPort port (s.igmpReport port)).finish

/-- UNSOLICITED_REPORT (R83): a report of a join or leave. -/
def execUnsolicitedReport (port group : Nat) (s : State) : Host.Outcome State Fault Refusal :=
  (s.whenPort port (s.unsolicited port group)).finish

/-- HELD_FRAME_RELEASE (R444): the frame that the test unit holds is delivered after 1 ms. -/
def execHeldFrameRelease (port : Nat) (s : State) : Host.Outcome State Fault Refusal :=
  (s.whenPort port (s.heldFrame port)).finish

end Sys2Proof.Machine
end

