-- ==== Sys2Proof/Machine/CmdOsp.lean ====
section
/-!
DEFINITION. The commands of the session engine (R109 to R139).
-/

namespace Sys2Proof.Machine

/-- A KEEPALIVE reaches the engine (R111, R132). -/
def State.ospKeepalive (s : State) (src : UdpFrom) (m : OspMsg) : State :=
  if m.type == 0x30 then s.ospReceive src m else s

/-- HELLO_STAGE0 (R114): a HELLO of stage 0. -/
def execHelloStage0 (src : UdpFrom) (b : HelloBody) (s : State) : Host.Outcome State Fault Refusal :=
  ((s.rxTake src.port 5).helloStage0 src b).finish

/-- HELLO_STAGE1 (R116): a HELLO of stage 1. -/
def execHelloStage1 (src : UdpFrom) (b : HelloBody) (s : State) : Host.Outcome State Fault Refusal :=
  ((s.rxTake src.port 5).helloStage1 src b).finish

/-- CHALLENGE_EXPIRY (R114): a challenge has been held for 1 s. -/
def execChallengeExpiry (src : UdpFrom) (s : State) : Host.Outcome State Fault Refusal :=
  (s.challengeExpiry src).finish

/-- HELLO_IGNORE_END (R117): the time of ignored HELLOs ends. -/
def execHelloIgnoreEnd (addr : Nat) (s : State) : Host.Outcome State Fault Refusal :=
  (s.helloIgnoreEnd addr).finish

/-- OSP_MESSAGE (R119): a message reaches the engine. -/
def execOspMessage (src : UdpFrom) (m : OspMsg) (s : State) : Host.Outcome State Fault Refusal :=
  ((s.rxTake src.port 5).ospReceive src m).finish

/-- KEEPALIVE (R132): a KEEPALIVE reaches the engine. -/
def execKeepalive (src : UdpFrom) (m : OspMsg) (s : State) : Host.Outcome State Fault Refusal :=
  ((s.rxTake src.port 5).ospKeepalive src m).finish

/-- SCENE_BEGIN (R127): SCENE_BEGIN at the front of a session opens a batch. -/
def execSceneBegin (ses : Nat) (s : State) : Host.Outcome State Fault Refusal :=
  (s.sceneBegin ses).finish

/-- OBJ_UPDATE (R123): the records of an OBJ_UPDATE are judged. -/
def execObjUpdate (ses : Nat) (s : State) : Host.Outcome State Fault Refusal :=
  (s.objUpdate ses).finish

/-- SCENE_COMMIT (R127): the batch closes and gets its due block. -/
def execSceneCommit (ses : Nat) (s : State) : Host.Outcome State Fault Refusal :=
  (s.sceneCommit ses).finish

/-- SCENE_ABORT (R127): the batch is discarded. -/
def execSceneAbort (ses : Nat) (s : State) : Host.Outcome State Fault Refusal :=
  (s.sceneAbort ses).finish

/-- BYE (R133): a BYE of the controller is processed. -/
def execBye (ses : Nat) (s : State) : Host.Outcome State Fault Refusal :=
  (s.bye ses).finish

/-- NAK (R121): a gap is answered. -/
def execNak (ses : Nat) (s : State) : Host.Outcome State Fault Refusal :=
  (s.nak ses).finish

/-- LOST (R122): a missing number is given up. -/
def execLost (ses : Nat) (s : State) : Host.Outcome State Fault Refusal :=
  (s.giveUp ses).finish

/-- BATCH_TIMEOUT (R129): an open batch has lasted too long. -/
def execBatchTimeout (ses : Nat) (s : State) : Host.Outcome State Fault Refusal :=
  (s.batchTimeout ses).finish

/-- KEEPALIVE_SEND (R132): the device has sent nothing for an interval. -/
def execKeepaliveSend (ses : Nat) (s : State) : Host.Outcome State Fault Refusal :=
  (s.keepaliveSend ses).finish

/-- TIMEOUT (R132): the controller has sent nothing for three intervals. -/
def execSessionTimeout (ses : Nat) (s : State) : Host.Outcome State Fault Refusal :=
  (s.sessionTimeout ses).finish

/-- HOST_CLOSE (R133): a write of OSP_SESn_CTRL.CLOSE. -/
def execHostClose (a : Access) (ses : Nat) (s : State) : Host.Outcome State Fault Refusal :=
  (s.only (decide (ses < 8)) (s.writeAction a R.OSP_SESn_CTRL [ses] 1)).finish

/-- ENGINE_OFF (R133): a write that clears OSP_CTRL.EN. -/
def execEngineOff (a : Access) (s : State) : Host.Outcome State Fault Refusal :=
  (s.writeClear a R.OSP_CTRL [] 0x80000000).finish

/-- OWNER_WRITE (R126): a write of OSP_OBJn. -/
def execOwnerWrite (a : Access) (obj value : Nat) (s : State) : Host.Outcome State Fault Refusal :=
  (s.only (decide (obj < 1024)) (s.hostWrite a (R.OSP_OBJn.addr [obj]) 4 value)).finish

end Sys2Proof.Machine
end

