-- ==== Sys2Proof/Machine/CmdPair.lean ====
section
/-!
DEFINITION. The commands of the redundant pair (R341 to R360).
-/

namespace Sys2Proof.Machine

/-- A cause of R345 becomes active; what it leads to is judged at the end of the command. -/
def State.pairCause (s : State) (bit : Nat) : State := s.wr F.RED_CAUSE_CAUSE (s.rd F.RED_CAUSE_CAUSE ||| bit)

/-- Step 3 of R360: a unit that resynchronises applies the copied configuration, register by register. -/
def State.takeConfig (s : State) (config : List (Nat × Nat)) : State :=
  if s.paired && s.redState == 1 && !s.pair.copied then
    let t := s.applyWrites config
    { t with pair := { t.pair with copied := true } }
  else s

/-- MIRROR_FRAME (R350): a mirror frame arrives. -/
def execMirrorFrame (f : MirrorFrame) (s : State) : Host.Outcome State Fault Refusal :=
  (s.rxMirror f).finish

/-- CLAIM_IN_CHANGE (R342): ACT_CLAIM_IN changes. -/
def execClaimInChange (level : Bool) (s : State) : Host.Outcome State Fault Refusal :=
  (s.claimIn level).finish

/-- CLAIM (R347): the unit claims when R347 lets it. -/
def execClaim (s : State) : Host.Outcome State Fault Refusal :=
  s.claimNow.finish

/-- ECC_SRAM (R345): an uncorrectable ECC error in SRAM. -/
def execEccSram (s : State) : Host.Outcome State Fault Refusal :=
  (s.pairCause 1).finish

/-- ECC_DRAM (R345): an uncorrectable ECC error of the DRAM. -/
def execEccDram (s : State) : Host.Outcome State Fault Refusal :=
  (s.pairCause 2).finish

/-- YIELD (R346): a write of RED_CTRL.YIELD. -/
def execYieldControl (a : Access) (s : State) : Host.Outcome State Fault Refusal :=
  (s.writeAction a R.RED_CTRL [] 1).finish

/-- RESYNC (R349): a write of RED_CTRL.RESYNC. -/
def execResync (a : Access) (s : State) : Host.Outcome State Fault Refusal :=
  (s.writeAction a R.RED_CTRL [] 2).finish

/-- PARTNER_FAULT (R348): PAIR_FAULT_IN rises. -/
def execPartnerFault (s : State) : Host.Outcome State Fault Refusal :=
  s.partnerFault.finish

/-- PAIR_FAULT_IN_DEASSERT (R346): PAIR_FAULT_IN falls; the judgement of the pair follows. -/
def execPairFaultInDeassert (s : State) : Host.Outcome State Fault Refusal :=
  (s.wr F.RED_STAT_FAULT_IN 0).finish

/-- PARTNER_LOST (R349): no mirror frame came for 3 blocks. -/
def execPartnerLost (s : State) : Host.Outcome State Fault Refusal :=
  s.partnerLost.finish

/-- RESYNC_CONFIG_APPLIED (R360): the copied configuration is applied. -/
def execResyncConfigApplied (config : List (Nat × Nat)) (s : State) : Host.Outcome State Fault Refusal :=
  (s.takeConfig config).finish

/-- SYNCED (R360): the first full mirror is acknowledged. -/
def execSynced (s : State) : Host.Outcome State Fault Refusal :=
  s.syncedNow.finish

end Sys2Proof.Machine
end

