-- ==== Sys2Proof/Machine/CmdPower.lean ====
section
/-!
DEFINITION. The commands of resets, power states, supplies and temperature (R427 to R440, R449, R457).
-/

namespace Sys2Proof.Machine

/-- POR (R427): a supply falls below its threshold, or all have been good for 2 ms. -/
def execPor (suppliesGood : Bool) (s : State) : Host.Outcome State Fault Refusal :=
  (s.porNow suppliesGood).finish

/-- PIN (R428): low samples of SYS_RSTn. -/
def execPinReset (lowSamples : Nat) (s : State) : Host.Outcome State Fault Refusal :=
  (s.pinNow lowSamples).finish

/-- SOFT (R427): a write of SYS_RSTCTRL. -/
def execSoftReset (a : Access) (value : Nat) (s : State) : Host.Outcome State Fault Refusal :=
  (s.hostWrite a (R.SYS_RSTCTRL.addr []) 4 value).finish

/-- RESET (R430): the reset that is due takes effect. -/
def execReset (s : State) : Host.Outcome State Fault Refusal :=
  s.resetNow.finish

/-- RUN (R435): a write of SYS_PWRCTRL with GO and REQ 0. -/
def execPwrRun (a : Access) (s : State) : Host.Outcome State Fault Refusal :=
  (s.hostWrite a (R.SYS_PWRCTRL.addr []) 4 0x80000000).finish

/-- QUIET (R436): a write of SYS_PWRCTRL with GO and REQ 1. -/
def execPwrQuiet (a : Access) (s : State) : Host.Outcome State Fault Refusal :=
  (s.hostWrite a (R.SYS_PWRCTRL.addr []) 4 0x80000001).finish

/-- STANDBY (R437): a write of SYS_PWRCTRL with GO and REQ 2. -/
def execPwrStandby (a : Access) (s : State) : Host.Outcome State Fault Refusal :=
  (s.hostWrite a (R.SYS_PWRCTRL.addr []) 4 0x80000002).finish

/-- OFF (R439): a write of SYS_PWRCTRL with GO and REQ 3. -/
def execPwrOff (a : Access) (s : State) : Host.Outcome State Fault Refusal :=
  (s.hostWrite a (R.SYS_PWRCTRL.addr []) 4 0x80000003).finish

/-- WAKE (R438): a wake source. -/
def execWake (src : WakeSource) (s : State) : Host.Outcome State Fault Refusal :=
  (s.wakeNow src).finish

/-- SUPPLY (R449): a rail leaves its window. -/
def execSupply (rail : Nat) (s : State) : Host.Outcome State Fault Refusal :=
  (s.railOut rail).finish

/-- RAIL_IN_WINDOW (R449): a rail returns to its window. -/
def execRailInWindow (rail : Nat) (s : State) : Host.Outcome State Fault Refusal :=
  (s.railIn rail).finish

/-- TEMP_UPDATE (R457): a reading of the temperature sensor. -/
def execTempUpdate (temp : Int) (s : State) : Host.Outcome State Fault Refusal :=
  (s.tempUpdate temp).finish

end Sys2Proof.Machine
end

