-- ==== Sys2Proof/Machine/CmdPtp.lean ====
section
/-!
DEFINITION. The commands of the PTP engines (R49 to R65).
-/

namespace Sys2Proof.Machine

/-- PTP_SYNC (R49): a Sync is received. -/
def execPtpSync (port : Nat) (m : PtpMsg) (t2 : Nat) (s : State) : Host.Outcome State Fault Refusal :=
  (s.whenPort port (s.rxSync port m t2)).finish

/-- FOLLOW_UP (R64): a Follow_Up is received. -/
def execFollowUp (port : Nat) (m : PtpMsg) (s : State) : Host.Outcome State Fault Refusal :=
  (s.whenPort port (s.rxFollowUp port m)).finish

/-- ANNOUNCE (R50): an Announce is received. -/
def execAnnounce (port : Nat) (m : PtpMsg) (s : State) : Host.Outcome State Fault Refusal :=
  (s.whenPort port (s.rxAnnounce port m)).finish

/-- DELAY_REQ (R49): a Delay_Req is received. -/
def execDelayReq (port : Nat) (m : PtpMsg) (t4 : Nat) (s : State) : Host.Outcome State Fault Refusal :=
  (s.whenPort port (s.rxDelayReq port m t4)).finish

/-- DELAY_RESP (R64): a Delay_Resp is received. -/
def execDelayResp (port : Nat) (m : PtpMsg) (s : State) : Host.Outcome State Fault Refusal :=
  (s.whenPort port (s.rxDelayResp port m)).finish

/-- PDELAY_REQ (R49): a Pdelay_Req is received. -/
def execPdelayReq (port : Nat) (m : PtpMsg) (t2 t3 : Nat) (s : State) : Host.Outcome State Fault Refusal :=
  (s.whenPort port (s.rxPdelayReq port m t2 t3)).finish

/-- PDELAY_RESP (R64): a Pdelay_Resp is received. -/
def execPdelayResp (port : Nat) (m : PtpMsg) (t4 : Nat) (s : State) : Host.Outcome State Fault Refusal :=
  (s.whenPort port (s.rxPdelayResp port m t4)).finish

/-- PDELAY_RESP_FOLLOW_UP (R64): a Pdelay_Resp_Follow_Up is received. -/
def execPdelayRespFollowUp (port : Nat) (m : PtpMsg) (s : State) : Host.Outcome State Fault Refusal :=
  (s.whenPort port (s.rxPdelayRespFollowUp port m)).finish

/-- SYNC_TRANSMIT (R49): a MASTER sends a Sync and its Follow_Up. -/
def execSyncTransmit (port t1 : Nat) (s : State) : Host.Outcome State Fault Refusal :=
  (s.whenPort port (s.txSync port t1)).finish

/-- ANNOUNCE_TRANSMIT (R52): a MASTER sends an Announce. -/
def execAnnounceTransmit (port : Nat) (s : State) : Host.Outcome State Fault Refusal :=
  (s.whenPort port (s.txAnnounce port)).finish

/-- DELAY_REQ_TRANSMIT (R49): a delay request is sent. -/
def execDelayReqTransmit (port t : Nat) (s : State) : Host.Outcome State Fault Refusal :=
  (s.whenPort port (s.txDelayReq port t)).finish

/-- FU_MISSING (R64): no Follow_Up came. -/
def execFuMissing (port : Nat) (s : State) : Host.Outcome State Fault Refusal :=
  (s.whenPort port (s.fuMissing port)).finish

/-- DRESP_MISSING (R64): no delay response came. -/
def execDrespMissing (port : Nat) (s : State) : Host.Outcome State Fault Refusal :=
  (s.whenPort port (s.drespMissing port)).finish

/-- ANNOUNCE_RECEIPT_TIMEOUT (R49): no Announce of the parent came. -/
def execAnnounceReceiptTimeout (port : Nat) (s : State) : Host.Outcome State Fault Refusal :=
  (s.whenPort port (s.announceTimeout port)).finish

/-- PDELAY_HOLD_END (R64): the hold of peer delay requests ends. -/
def execPdelayHoldEnd (port : Nat) (s : State) : Host.Outcome State Fault Refusal :=
  (s.whenPort port (s.pdelayHoldEnd port)).finish

/-- PTP_REACQ (R57): a write of PTP_REACQ.GO. -/
def execPtpReacq (a : Access) (port : Nat) (s : State) : Host.Outcome State Fault Refusal :=
  (s.whenPort port (s.writeAction a R.PTP_REACQ [port] 1)).finish

/-- PTP_CTRL_WRITE (R65): a write of PTP_CTRL. -/
def execPtpCtrlWrite (a : Access) (port value : Nat) (s : State) : Host.Outcome State Fault Refusal :=
  (s.whenPort port (s.hostWrite a (R.PTP_CTRL.addr [port]) 4 value)).finish

/-- TXTS_POP (R61): a write of PTP_TXTS_POP.POP. -/
def execTxtsPop (a : Access) (port : Nat) (s : State) : Host.Outcome State Fault Refusal :=
  (s.whenPort port (s.writeAction a R.PTP_TXTS_POP [port] 1)).finish

end Sys2Proof.Machine
end

