-- ==== Sys2Proof/Machine/CmdRing.lean ====
section
/-!
DEFINITION. The commands of the cascade ring (R310 to R338).
-/

namespace Sys2Proof.Machine

/-- The head's reset reaches a member of the ring (R337). -/
def State.ringAsked (s : State) : State := if s.on F.CAS_CFG_EN && !s.isHead then s.askReset 4 else s

/-- RING_START (R312): both links of a device are up. -/
def execRingStart (s : State) : Host.Outcome State Fault Refusal :=
  s.ringStart.finish

/-- ENUM (R312): an ENUM frame arrives. -/
def execEnumFrame (side : Side) (f : EnumFrame) (s : State) : Host.Outcome State Fault Refusal :=
  (s.rxEnum side f).finish

/-- TRAIN_LAUNCH (R319): an origin launches its train, and a pair member its mirror. -/
def execTrainLaunch (dir : Side) (mirrorWords : Nat) (s : State) : Host.Outcome State Fault Refusal :=
  ((s.trainLaunch dir).mirrorLaunch dir mirrorWords).finish

/-- LINES_FRAME (R324): a LINES frame arrives. -/
def execLinesFrame (dir : Side) (f : LinesFrame) (s : State) : Host.Outcome State Fault Refusal :=
  (s.rxLines dir f).finish

/-- TIME_FRAME (R333): a TIME frame arrives. -/
def execTimeFrame (dir : Side) (timeNs block : Nat) (correction : Int) (held : Nat) (arrival : Nat) (s : State) : Host.Outcome State Fault Refusal :=
  (s.rxTime dir timeNs block correction held arrival).finish

/-- DELAY_FRAME (R333): a DELAY exchange ends. -/
def execDelayFrame (side : Side) (roundTrip turnaround : Nat) (s : State) : Host.Outcome State Fault Refusal :=
  (s.only (s.on F.CAS_CFG_EN || s.ringMute) (s.rxDelay side roundTrip turnaround)).finish

/-- TUNNEL_REQUEST (R334): a tunnelled access reaches this member. -/
def execTunnelRequest (a : Access) (addr size : Nat) (write : Option Nat) (s : State) : Host.Outcome State Fault Refusal :=
  (s.tunnelServe a addr size write).finish

/-- TUNNEL_ANSWER (R334): a member answers the head. -/
def execTunnelAnswer (dev value cause : Nat) (s : State) : Host.Outcome State Fault Refusal :=
  (s.tunnelAnswer dev value cause).finish

/-- TUNNEL_TIMEOUT (R336): no answer came within 2 ms. -/
def execTunnelTimeout (dev : Nat) (s : State) : Host.Outcome State Fault Refusal :=
  (s.tunnelTimeout dev).finish

/-- LINE_DEADLINE (R326): the deadline of a train passes. -/
def execLineDeadline (dir : Side) (s : State) : Host.Outcome State Fault Refusal :=
  (s.lineDeadline dir).finish

/-- RING_LINK_DOWN (R328): a link of the ring goes down. -/
def execRingLinkDown (link : Nat) (s : State) : Host.Outcome State Fault Refusal :=
  (s.linkDownRing link).finish

/-- WRAP (R329): a wrap takes effect. -/
def execWrap (s : State) : Host.Outcome State Fault Refusal :=
  s.wrapTakes.finish

/-- RING_LINK_UP (R328): a link of the ring comes back. -/
def execRingLinkUp (link : Nat) (s : State) : Host.Outcome State Fault Refusal :=
  (s.linkUpRing link).finish

/-- RING_RESET (R337): a write of CAS_RST with GO on the head, or the head's reset at a member. -/
def execRingReset (a : Option Access) (value : Nat) (s : State) : Host.Outcome State Fault Refusal :=
  (match a with
    | some a => s.hostWrite a (R.CAS_RST.addr []) 4 (value ||| 0x80000000)
    | none => s.ringAsked).finish

end Sys2Proof.Machine
end

