-- ==== Sys2Proof/Machine/CmdSec.lean ====
section
/-!
DEFINITION. The commands of the security unit, the transactions and the audit log (R402 to R426).
-/

namespace Sys2Proof.Machine

/-- OPEN_REQ (R404): a write of SEC_OPEN_CTRL with REQ. -/
def execOpenReq (a : Access) (value : Nat) (s : State) : Host.Outcome State Fault Refusal :=
  (s.hostWrite a (R.SEC_OPEN_CTRL.addr []) 4 (value ||| 0x80000000)).finish

/-- PROVE (R404): a write of SEC_OPEN_CTRL with PROVE. -/
def execProve (a : Access) (value : Nat) (s : State) : Host.Outcome State Fault Refusal :=
  (s.hostWrite a (R.SEC_OPEN_CTRL.addr []) 4 (value ||| 0x40000000)).finish

/-- CHALLENGE_DRAWN (R404): the challenge of a slot is drawn. -/
def execChallengeDrawn (slot : Nat) (s : State) : Host.Outcome State Fault Refusal :=
  (s.challengeDrawn slot).finish

/-- MAC_CHECKED (R404): the MAC of a PROVE is checked. -/
def execMacChecked (slot : Nat) (s : State) : Host.Outcome State Fault Refusal :=
  (s.macChecked slot).finish

/-- EXPIRED (R404): a challenge has stood for 1 s without a PROVE. -/
def execExpired (slot : Nat) (s : State) : Host.Outcome State Fault Refusal :=
  (s.challengeExpired slot).finish

/-- LOCKOUT_END (R406): the lock-out of an interface ends. -/
def execLockoutEnd (i : Iface) (s : State) : Host.Outcome State Fault Refusal :=
  (s.lockoutEnd i).finish

/-- CLOSE (R408): a write of SEC_OPEN_CTRL.CLOSE. -/
def execSessionClose (a : Access) (s : State) : Host.Outcome State Fault Refusal :=
  (s.writeAction a R.SEC_OPEN_CTRL [] 0x20000000).finish

/-- KEY_LOAD (R409): a write of SEC_KLOAD_CTRL with GO. -/
def execKeyLoad (a : Access) (value : Nat) (s : State) : Host.Outcome State Fault Refusal :=
  (s.hostWrite a (R.SEC_KLOAD_CTRL.addr []) 4 (value ||| 0x80000000)).finish

/-- BEGIN (R411): a write of TXN_CTRL.BEGIN. -/
def execTxnBegin (a : Access) (s : State) : Host.Outcome State Fault Refusal :=
  (s.writeAction a R.TXN_CTRL [] 0x80000000).finish

/-- COMMIT (R415): a write of TXN_CTRL.COMMIT. -/
def execTxnCommit (a : Access) (s : State) : Host.Outcome State Fault Refusal :=
  (s.writeAction a R.TXN_CTRL [] 0x40000000).finish

/-- ROLLBACK (R416): a write of TXN_CTRL.ROLLBACK. -/
def execTxnRollback (a : Access) (s : State) : Host.Outcome State Fault Refusal :=
  (s.writeAction a R.TXN_CTRL [] 0x20000000).finish

/-- VALIDATION_PASS (R415): the validation of the oldest commit ends. -/
def execValidationPass (s : State) : Host.Outcome State Fault Refusal :=
  s.validationEnds.finish

/-- TXN_TIMEOUT (R416): a transaction has stood idle too long. -/
def execTxnTimeout (slot : Nat) (s : State) : Host.Outcome State Fault Refusal :=
  (s.only (decide (slot < 8)) (s.txnTimeout slot)).finish

/-- LIFECYCLE_GO (R420): a write of SEC_LC_CTRL with GO. -/
def execLifecycleGo (a : Access) (value : Nat) (s : State) : Host.Outcome State Fault Refusal :=
  (s.hostWrite a (R.SEC_LC_CTRL.addr []) 4 (value ||| 0x80000000)).finish

/-- REVOKE (R423): a write of SEC_PROV_REVOKE. -/
def execRevoke (a : Access) (value : Nat) (s : State) : Host.Outcome State Fault Refusal :=
  (s.hostWrite a (R.SEC_PROV_REVOKE.addr []) 4 value).finish

/-- LOG_FLUSH (R426): a write of LOG_CTRL.FLUSH, or UNFLUSHED at AUTO. -/
def execLogFlush (a : Option Access) (s : State) : Host.Outcome State Fault Refusal :=
  (match a with
    | some a => s.writeAction a R.LOG_CTRL [] 1
    | none => s.only s.autoFlush s.logFlush).finish

/-- FLUSH_DONE (R426): a flush of the log ends. -/
def execFlushDone (durable : Nat) (flashError : Bool) (s : State) : Host.Outcome State Fault Refusal :=
  (s.logFlushDone durable flashError).finish

end Sys2Proof.Machine
end

