-- ==== Sys2Proof/Machine/CmdSerial.lean ====
section
/-!
DEFINITION. The commands of the serial ports, the queue pool and the metadata port (R140 to R173).
-/

namespace Sys2Proof.Machine

/-- POP; with `meets` the queue's next append falls in the same fabric cycle, so that the marks are judged after both (R164). -/
def State.popMeeting (s : State) (a : Access) (queue : Nat) (meets : Bool) : State :=
  let t := (s.setQueue queue { s.queue queue with meets := meets }).writeAction a R.BRMq_CTRL [queue] 1
  let y := t.queue queue
  t.setQueue queue { y with meets := meets && decide (y.words.length < (s.queue queue).words.length) }

/-- SAP_RECEIVE_FRAME (R149): a port completes a frame. -/
def execSapReceiveFrame (port wsEdge : Nat) (ws sd wsFall sdFall : List Bool) (s : State) : Host.Outcome State Fault Refusal :=
  (s.only (decide (port < 32)) (s.sapReceive port wsEdge (sapClocks ws sd wsFall sdFall))).finish

/-- SAP_START (R143): the clocks of a port start. -/
def execSapStart (port wsEdge : Nat) (s : State) : Host.Outcome State Fault Refusal :=
  (s.only (decide (port < 32)) (s.sapStart port wsEdge)).finish

/-- RATE_WINDOW_END (R145): a rate window ends. -/
def execRateWindowEnd (port cycles : Nat) (s : State) : Host.Outcome State Fault Refusal :=
  (s.rateWindowEnd port cycles).finish

/-- CLASS_NONE (R145): the word select of a port stops. -/
def execClassNone (port : Nat) (s : State) : Host.Outcome State Fault Refusal :=
  (s.classNone port).finish

/-- SAP_TRANSMIT_FRAME (R154): a transmit port sends a frame. -/
def execSapTransmitFrame (port : Nat) (clocks : SapFrameClocks) (s : State) : Host.Outcome State Fault Refusal :=
  (s.only (decide (port < 32)) (s.sapTransmit port clocks.wsEdge clocks.leftBits clocks.rightBits)).finish

/-- BRM_WR (R159): a write of BRMq_WR. -/
def execBrmWr (a : Access) (queue value : Nat) (s : State) : Host.Outcome State Fault Refusal :=
  (s.only (decide (queue < 256)) (s.hostWrite a (R.BRMq_WR.addr [queue]) 4 value)).finish

/-- BRM_FLUSH (R160): a write of BRMq_CTRL.FLUSH. -/
def execBrmFlush (a : Access) (queue : Nat) (s : State) : Host.Outcome State Fault Refusal :=
  (s.only (decide (queue < 256)) (s.writeAction a R.BRMq_CTRL [queue] 2)).finish

/-- IDLE_FLUSH (R160): nothing was written to a queue for IDLE. -/
def execIdleFlush (queue : Nat) (s : State) : Host.Outcome State Fault Refusal :=
  (s.only (decide (queue < 256)) (s.idleFlush queue)).finish

/-- POP (R161): a write of BRMq_CTRL.POP. -/
def execPop (a : Access) (queue : QueueRead) (s : State) : Host.Outcome State Fault Refusal :=
  (s.only (decide (queue.queue < 256)) (s.popMeeting a queue.queue queue.meets)).finish

/-- QUEUE_RESET (R165): a write of BRMq_CTRL.RESET. -/
def execQueueReset (a : Access) (queue : Nat) (s : State) : Host.Outcome State Fault Refusal :=
  (s.only (decide (queue < 256)) (s.writeAction a R.BRMq_CTRL [queue] 4)).finish

/-- RESET_COMPLETE (R165): the reset of a queue completes. -/
def execResetComplete (queue : Nat) (s : State) : Host.Outcome State Fault Refusal :=
  (s.only (decide (queue < 256)) (s.resetComplete queue)).finish

/-- MDI_HALFWORD (R170): one edge of MDI_CLK. -/
def execMdiHalfword (tag : Nat) (data : Option (BitVec 16)) (last : Bool) (s : State) : Host.Outcome State Fault Refusal :=
  (s.mdiEdge tag data last).finish

/-- MDI_DISABLE (R173): a write that clears MDI_CTRL.EN. -/
def execMdiDisable (a : Access) (s : State) : Host.Outcome State Fault Refusal :=
  (s.writeClear a R.MDI_CTRL [] 0x80000000).finish

end Sys2Proof.Machine
end

