-- ==== Sys2Proof/Machine/CmdStream.lean ====
section
/-!
DEFINITION. The commands of the stream engine (R87 to R108).
-/

namespace Sys2Proof.Machine

/-- STREAM_PACKET (R94): a packet for a receive context. -/
def execStreamPacket (port : Nat) (p : StreamPkt) (arrival : Nat) (s : State) : Host.Outcome State Fault Refusal :=
  (s.whenPort port ((s.rxTake port 4).rxStream port p arrival)).finish

/-- STARVED (R96): a context in RUN has stored nothing for STALE blocks. -/
def execStarved (ctx : Nat) (s : State) : Host.Outcome State Fault Refusal :=
  (s.rxStarved ctx).finish

/-- PACKET_RELEASE (R102): the next packet of a transmit context is released. -/
def execPacketRelease (ctx : Nat) (s : State) : Host.Outcome State Fault Refusal :=
  (s.packetRelease ctx).finish

/-- TX_LATE (R103): a held packet is discarded late. -/
def execTxLate (ctx port : Nat) (s : State) : Host.Outcome State Fault Refusal :=
  (s.whenPort port (s.txLate ctx port)).finish

/-- IDENTITY_FADE_END (R107): an old identity has faded out. -/
def execIdentityFadeEnd (tx : Bool) (ctx : Nat) (s : State) : Host.Outcome State Fault Refusal :=
  (s.identityFadeEnd tx ctx).finish

end Sys2Proof.Machine
end

