-- ==== Sys2Proof/Machine/Dispatch.lean ====
section
/-! DEFINITION. One arm for each command: a direct call of its meaning. -/

namespace Sys2Proof.Machine

def exec (i : Instr) (s : State) : Host.Outcome State Fault Refusal :=
  match i with
  | .blockTick phase => Sys2Proof.Machine.execBlockTick phase s
  | .registerWrite a addr size value => Sys2Proof.Machine.execRegisterWrite a addr size value s
  | .safeLoadWrite a addr value => Sys2Proof.Machine.execSafeLoadWrite a addr value s
  | .measurementWindowEnd n rate => Sys2Proof.Machine.execMeasurementWindowEnd n rate s
  | .refLost n => Sys2Proof.Machine.execRefLost n s
  | .refGlitch n => Sys2Proof.Machine.execRefGlitch n s
  | .waitToRestoreEnd n => Sys2Proof.Machine.execWaitToRestoreEnd n s
  | .lock => Sys2Proof.Machine.execLock s
  | .hoOos => Sys2Proof.Machine.execHoOos s
  | .clkBlockRead a => Sys2Proof.Machine.execClkBlockRead a s
  | .timeSnapshotRead a epoch port => Sys2Proof.Machine.execTimeSnapshotRead a epoch port s
  | .counterRead a port k => Sys2Proof.Machine.execCounterRead a port k s
  | .ringTimeHeld block epoch => Sys2Proof.Machine.execRingTimeHeld block epoch s
  | .ptpSync port m t2 => Sys2Proof.Machine.execPtpSync port m t2 s
  | .followUp port m => Sys2Proof.Machine.execFollowUp port m s
  | .announce port m => Sys2Proof.Machine.execAnnounce port m s
  | .delayReq port m t4 => Sys2Proof.Machine.execDelayReq port m t4 s
  | .delayResp port m => Sys2Proof.Machine.execDelayResp port m s
  | .pdelayReq port m t2 t3 => Sys2Proof.Machine.execPdelayReq port m t2 t3 s
  | .pdelayResp port m t4 => Sys2Proof.Machine.execPdelayResp port m t4 s
  | .pdelayRespFollowUp port m => Sys2Proof.Machine.execPdelayRespFollowUp port m s
  | .syncTransmit port t1 => Sys2Proof.Machine.execSyncTransmit port t1 s
  | .announceTransmit port => Sys2Proof.Machine.execAnnounceTransmit port s
  | .delayReqTransmit port t => Sys2Proof.Machine.execDelayReqTransmit port t s
  | .fuMissing port => Sys2Proof.Machine.execFuMissing port s
  | .drespMissing port => Sys2Proof.Machine.execDrespMissing port s
  | .announceReceiptTimeout port => Sys2Proof.Machine.execAnnounceReceiptTimeout port s
  | .pdelayHoldEnd port => Sys2Proof.Machine.execPdelayHoldEnd port s
  | .ptpReacq a port => Sys2Proof.Machine.execPtpReacq a port s
  | .ptpCtrlWrite a port value => Sys2Proof.Machine.execPtpCtrlWrite a port value s
  | .txtsPop a port => Sys2Proof.Machine.execTxtsPop a port s
  | .linkUp port => Sys2Proof.Machine.execLinkUp port s
  | .linkDown port => Sys2Proof.Machine.execLinkDown port s
  | .frameReceive port f => Sys2Proof.Machine.execFrameReceive port f s
  | .pauseExpiry port prio => Sys2Proof.Machine.execPauseExpiry port prio s
  | .tailWrite a port ring value => Sys2Proof.Machine.execTailWrite a port ring value s
  | .hostTransmit port queue => Sys2Proof.Machine.execHostTransmit port queue s
  | .txDone port queue launch => Sys2Proof.Machine.execTxDone port queue launch s
  | .flushed a port queue => Sys2Proof.Machine.execFlushed a port queue s
  | .arpRequest port p => Sys2Proof.Machine.execArpRequest port p s
  | .arpReply port p => Sys2Proof.Machine.execArpReply port p s
  | .gratuitousAnnouncement port => Sys2Proof.Machine.execGratuitousAnnouncement port s
  | .arpAgeOut port ip => Sys2Proof.Machine.execArpAgeOut port ip s
  | .arpRetry port ip => Sys2Proof.Machine.execArpRetry port ip s
  | .icmpEcho port srcIp ident seq data => Sys2Proof.Machine.execIcmpEcho port srcIp ident seq data s
  | .igmpQuery port maxRespMs => Sys2Proof.Machine.execIgmpQuery port maxRespMs s
  | .igmpReport port => Sys2Proof.Machine.execIgmpReport port s
  | .unsolicitedReport port group => Sys2Proof.Machine.execUnsolicitedReport port group s
  | .streamPacket port p arrival => Sys2Proof.Machine.execStreamPacket port p arrival s
  | .starved ctx => Sys2Proof.Machine.execStarved ctx s
  | .packetRelease ctx => Sys2Proof.Machine.execPacketRelease ctx s
  | .txLate ctx port => Sys2Proof.Machine.execTxLate ctx port s
  | .identityFadeEnd tx ctx => Sys2Proof.Machine.execIdentityFadeEnd tx ctx s
  | .helloStage0 src b => Sys2Proof.Machine.execHelloStage0 src b s
  | .helloStage1 src b => Sys2Proof.Machine.execHelloStage1 src b s
  | .challengeExpiry src => Sys2Proof.Machine.execChallengeExpiry src s
  | .helloIgnoreEnd addr => Sys2Proof.Machine.execHelloIgnoreEnd addr s
  | .ospMessage src m => Sys2Proof.Machine.execOspMessage src m s
  | .sceneBegin ses => Sys2Proof.Machine.execSceneBegin ses s
  | .objUpdate ses => Sys2Proof.Machine.execObjUpdate ses s
  | .sceneCommit ses => Sys2Proof.Machine.execSceneCommit ses s
  | .sceneAbort ses => Sys2Proof.Machine.execSceneAbort ses s
  | .bye ses => Sys2Proof.Machine.execBye ses s
  | .keepalive src m => Sys2Proof.Machine.execKeepalive src m s
  | .nak ses => Sys2Proof.Machine.execNak ses s
  | .lost ses => Sys2Proof.Machine.execLost ses s
  | .batchTimeout ses => Sys2Proof.Machine.execBatchTimeout ses s
  | .keepaliveSend ses => Sys2Proof.Machine.execKeepaliveSend ses s
  | .sessionTimeout ses => Sys2Proof.Machine.execSessionTimeout ses s
  | .hostClose a ses => Sys2Proof.Machine.execHostClose a ses s
  | .engineOff a => Sys2Proof.Machine.execEngineOff a s
  | .ownerWrite a obj value => Sys2Proof.Machine.execOwnerWrite a obj value s
  | .sapReceiveFrame port wsEdge ws sd wsFall sdFall => Sys2Proof.Machine.execSapReceiveFrame port wsEdge ws sd wsFall sdFall s
  | .sapStart port wsEdge => Sys2Proof.Machine.execSapStart port wsEdge s
  | .rateWindowEnd port cycles => Sys2Proof.Machine.execRateWindowEnd port cycles s
  | .classNone port => Sys2Proof.Machine.execClassNone port s
  | .sapTransmitFrame port clocks => Sys2Proof.Machine.execSapTransmitFrame port clocks s
  | .brmWr a queue value => Sys2Proof.Machine.execBrmWr a queue value s
  | .brmFlush a queue => Sys2Proof.Machine.execBrmFlush a queue s
  | .idleFlush queue => Sys2Proof.Machine.execIdleFlush queue s
  | .pop a queue => Sys2Proof.Machine.execPop a queue s
  | .queueReset a queue => Sys2Proof.Machine.execQueueReset a queue s
  | .resetComplete queue => Sys2Proof.Machine.execResetComplete queue s
  | .mdiHalfword tag data last => Sys2Proof.Machine.execMdiHalfword tag data last s
  | .mdiDisable a => Sys2Proof.Machine.execMdiDisable a s
  | .swapDone => Sys2Proof.Machine.execSwapDone s
  | .layoutTableWrite a addr value => Sys2Proof.Machine.execLayoutTableWrite a addr value s
  | .ghostRelease x => Sys2Proof.Machine.execGhostRelease x s
  | .routeRelease x => Sys2Proof.Machine.execRouteRelease x s
  | .delayXfadeEnd kind n => Sys2Proof.Machine.execDelayXfadeEnd kind n s
  | .xfDone out => Sys2Proof.Machine.execXfDone out s
  | .stageGo a value => Sys2Proof.Machine.execStageGo a value s
  | .stageDone => Sys2Proof.Machine.execStageDone s
  | .coefWrite a addr size value => Sys2Proof.Machine.execCoefWrite a addr size value s
  | .luvNop c => Sys2Proof.Machine.execLuvNop c s
  | .luvWaitblk c => Sys2Proof.Machine.execLuvWaitblk c s
  | .luvSync c n => Sys2Proof.Machine.execLuvSync c n s
  | .luvRti c => Sys2Proof.Machine.execLuvRti c s
  | .luvB c cond target => Sys2Proof.Machine.execLuvB c cond target s
  | .luvCall c cond target => Sys2Proof.Machine.execLuvCall c cond target s
  | .luvRet c cond => Sys2Proof.Machine.execLuvRet c cond s
  | .luvLdi c d imm => Sys2Proof.Machine.execLuvLdi c d imm s
  | .luvLdia c file n imm => Sys2Proof.Machine.execLuvLdia c file n imm s
  | .luvModi c n imm => Sys2Proof.Machine.execLuvModi c n imm s
  | .luvMov c dd b => Sys2Proof.Machine.execLuvMov c dd b s
  | .luvAdd c dd da b => Sys2Proof.Machine.execLuvAdd c dd da b s
  | .luvSub c dd da b => Sys2Proof.Machine.execLuvSub c dd da b s
  | .luvAddw c dd da b => Sys2Proof.Machine.execLuvAddw c dd da b s
  | .luvSubw c dd da b => Sys2Proof.Machine.execLuvSubw c dd da b s
  | .luvNeg c dd da => Sys2Proof.Machine.execLuvNeg c dd da s
  | .luvAbs c dd da => Sys2Proof.Machine.execLuvAbs c dd da s
  | .luvAnd c dd da b => Sys2Proof.Machine.execLuvAnd c dd da b s
  | .luvOr c dd da b => Sys2Proof.Machine.execLuvOr c dd da b s
  | .luvXor c dd da b => Sys2Proof.Machine.execLuvXor c dd da b s
  | .luvNot c dd da => Sys2Proof.Machine.execLuvNot c dd da s
  | .luvAsl c dd da b => Sys2Proof.Machine.execLuvAsl c dd da b s
  | .luvAsr c dd da b => Sys2Proof.Machine.execLuvAsr c dd da b s
  | .luvLsr c dd da b => Sys2Proof.Machine.execLuvLsr c dd da b s
  | .luvMin c dd da b => Sys2Proof.Machine.execLuvMin c dd da b s
  | .luvMax c dd da b => Sys2Proof.Machine.execLuvMax c dd da b s
  | .luvCmp c da b => Sys2Proof.Machine.execLuvCmp c da b s
  | .luvSel c dd da db cond => Sys2Proof.Machine.execLuvSel c dd da db cond s
  | .luvLd c d p m => Sys2Proof.Machine.execLuvLd c d p m s
  | .luvSt c d p m => Sys2Proof.Machine.execLuvSt c d p m s
  | .luvStr c j p m sh => Sys2Proof.Machine.execLuvStr c j p m sh s
  | .luvClr c mask => Sys2Proof.Machine.execLuvClr c mask s
  | .luvRnd c d j sh => Sys2Proof.Machine.execLuvRnd c d j sh s
  | .luvTrn c d j sh => Sys2Proof.Machine.execLuvTrn c d j sh s
  | .luvLda c j d => Sys2Proof.Machine.execLuvLda c j d s
  | .luvAdda c j k => Sys2Proof.Machine.execLuvAdda c j k s
  | .luvSuba c j k => Sys2Proof.Machine.execLuvSuba c j k s
  | .luvSha c j sh => Sys2Proof.Machine.execLuvSha c j sh s
  | .luvMova c j k => Sys2Proof.Machine.execLuvMova c j k s
  | .luvRep c n => Sys2Proof.Machine.execLuvRep c n s
  | .luvMovr c dst src => Sys2Proof.Machine.execLuvMovr c dst src s
  | .luvMpy c o => Sys2Proof.Machine.execLuvMpy c o s
  | .luvMac c o => Sys2Proof.Machine.execLuvMac c o s
  | .luvMsu c o => Sys2Proof.Machine.execLuvMsu c o s
  | .luvIllegal c => Sys2Proof.Machine.execLuvIllegal c s
  | .fabricLoadReturn c => Sys2Proof.Machine.execFabricLoadReturn c s
  | .interrupt c => Sys2Proof.Machine.execInterrupt c s
  | .doorbell a c => Sys2Proof.Machine.execDoorbell a c s
  | .timer c => Sys2Proof.Machine.execTimer c s
  | .programWrite a c w value => Sys2Proof.Machine.execProgramWrite a c w value s
  | .coreMemoryAccess a c offset write freeCycle => Sys2Proof.Machine.execCoreMemoryAccess a c offset write freeCycle s
  | .ringStart => Sys2Proof.Machine.execRingStart s
  | .enumFrame side f => Sys2Proof.Machine.execEnumFrame side f s
  | .trainLaunch dir mirrorWords => Sys2Proof.Machine.execTrainLaunch dir mirrorWords s
  | .linesFrame dir f => Sys2Proof.Machine.execLinesFrame dir f s
  | .timeFrame dir timeNs block correction held arrival => Sys2Proof.Machine.execTimeFrame dir timeNs block correction held arrival s
  | .delayFrame side roundTrip turnaround => Sys2Proof.Machine.execDelayFrame side roundTrip turnaround s
  | .mirrorFrame f => Sys2Proof.Machine.execMirrorFrame f s
  | .tunnelRequest a addr size write => Sys2Proof.Machine.execTunnelRequest a addr size write s
  | .tunnelAnswer dev value cause => Sys2Proof.Machine.execTunnelAnswer dev value cause s
  | .tunnelTimeout dev => Sys2Proof.Machine.execTunnelTimeout dev s
  | .lineDeadline dir => Sys2Proof.Machine.execLineDeadline dir s
  | .ringLinkDown link => Sys2Proof.Machine.execRingLinkDown link s
  | .wrap => Sys2Proof.Machine.execWrap s
  | .ringLinkUp link => Sys2Proof.Machine.execRingLinkUp link s
  | .ringReset a value => Sys2Proof.Machine.execRingReset a value s
  | .claimInChange level => Sys2Proof.Machine.execClaimInChange level s
  | .claim => Sys2Proof.Machine.execClaim s
  | .eccSram => Sys2Proof.Machine.execEccSram s
  | .eccDram => Sys2Proof.Machine.execEccDram s
  | .yieldControl a => Sys2Proof.Machine.execYieldControl a s
  | .resync a => Sys2Proof.Machine.execResync a s
  | .partnerFault => Sys2Proof.Machine.execPartnerFault s
  | .partnerLost => Sys2Proof.Machine.execPartnerLost s
  | .resyncConfigApplied config => Sys2Proof.Machine.execResyncConfigApplied config s
  | .synced => Sys2Proof.Machine.execSynced s
  | .boot found flashAnswers => Sys2Proof.Machine.execBoot found flashAnswers s
  | .persistDone => Sys2Proof.Machine.execPersistDone s
  | .rbAdvance a => Sys2Proof.Machine.execRbAdvance a s
  | .readPage a => Sys2Proof.Machine.execReadPage a s
  | .programPage a => Sys2Proof.Machine.execProgramPage a s
  | .eraseSector a => Sys2Proof.Machine.execEraseSector a s
  | .eraseSlot a => Sys2Proof.Machine.execEraseSlot a s
  | .fcmdDone error => Sys2Proof.Machine.execFcmdDone error s
  | .journalClear a => Sys2Proof.Machine.execJournalClear a s
  | .pcieRequest offset enables data write => Sys2Proof.Machine.execPcieRequest offset enables data write s
  | .spiFrame cmd addr data => Sys2Proof.Machine.execSpiFrame cmd addr data s
  | .spiAbort => Sys2Proof.Machine.execSpiAbort s
  | .pcieLinkReset => Sys2Proof.Machine.execPcieLinkReset s
  | .drainEnd m => Sys2Proof.Machine.execDrainEnd m s
  | .dmaGo a d => Sys2Proof.Machine.execDmaGo a d s
  | .dmaAbort a d => Sys2Proof.Machine.execDmaAbort a d s
  | .dmaDone d => Sys2Proof.Machine.execDmaDone d s
  | .irqEoi a value => Sys2Proof.Machine.execIrqEoi a value s
  | .openReq a value => Sys2Proof.Machine.execOpenReq a value s
  | .prove a value => Sys2Proof.Machine.execProve a value s
  | .expired slot => Sys2Proof.Machine.execExpired slot s
  | .lockoutEnd k => Sys2Proof.Machine.execLockoutEnd k s
  | .sessionClose a => Sys2Proof.Machine.execSessionClose a s
  | .keyLoad a value => Sys2Proof.Machine.execKeyLoad a value s
  | .txnBegin a => Sys2Proof.Machine.execTxnBegin a s
  | .txnCommit a => Sys2Proof.Machine.execTxnCommit a s
  | .txnRollback a => Sys2Proof.Machine.execTxnRollback a s
  | .validationPass => Sys2Proof.Machine.execValidationPass s
  | .txnTimeout slot => Sys2Proof.Machine.execTxnTimeout slot s
  | .lifecycleGo a value => Sys2Proof.Machine.execLifecycleGo a value s
  | .revoke a value => Sys2Proof.Machine.execRevoke a value s
  | .logFlush a => Sys2Proof.Machine.execLogFlush a s
  | .flushDone durable flashError => Sys2Proof.Machine.execFlushDone durable flashError s
  | .por suppliesGood => Sys2Proof.Machine.execPor suppliesGood s
  | .pinReset lowSamples => Sys2Proof.Machine.execPinReset lowSamples s
  | .softReset a value => Sys2Proof.Machine.execSoftReset a value s
  | .reset => Sys2Proof.Machine.execReset s
  | .pwrRun a => Sys2Proof.Machine.execPwrRun a s
  | .pwrQuiet a => Sys2Proof.Machine.execPwrQuiet a s
  | .pwrStandby a => Sys2Proof.Machine.execPwrStandby a s
  | .pwrOff a => Sys2Proof.Machine.execPwrOff a s
  | .wake src => Sys2Proof.Machine.execWake src s
  | .tstWrite a addr value => Sys2Proof.Machine.execTstWrite a addr value s
  | .heldFrameRelease port => Sys2Proof.Machine.execHeldFrameRelease port s
  | .supply rail => Sys2Proof.Machine.execSupply rail s
  | .tempUpdate temp => Sys2Proof.Machine.execTempUpdate temp s
  | .refRisingEdge edge period => Sys2Proof.Machine.execRefRisingEdge edge period s
  | .fabricStoreDone c => Sys2Proof.Machine.execFabricStoreDone c s
  | .railInWindow rail => Sys2Proof.Machine.execRailInWindow rail s
  | .pairFaultInDeassert => Sys2Proof.Machine.execPairFaultInDeassert s
  | .challengeDrawn slot => Sys2Proof.Machine.execChallengeDrawn slot s
  | .macChecked slot => Sys2Proof.Machine.execMacChecked slot s

end Sys2Proof.Machine
end

