-- ==== Sys2Proof/Safety.lean ====
section
/-!
DEFINITION. What the claims say of commands: that one completes, how it leaves the state it made, and the canonical form
of the state's tables.
-/

namespace Sys2Proof.Machine

/-- How a command leaves the state it made: the pair is judged (R345 to R349) and the interrupts settle (R400, R401). -/
def State.ended (s : State) : State := s.pairJudge.settle

/-- Command `i` completes in `s`: exec answers a next state, and it has the property `P`. -/
def Completes (i : Instr) (s : State) (P : State → Prop) : Prop := ∃ t, exec i s = .next t ∧ P t

/-- The registers that the judgement of the pair at the end of a command may write (R345 to R349). -/
def judged : List Nat := [R.RED_CAUSE.key [], R.RED_STAT.key [], R.RED_LASTCAUSE.key [], R.RED_EVT.key []]

/-- Every register word but those named, and those the judgement of the pair writes, is as in `s`. -/
def State.sameWords (s t : State) (but : List Nat) : Prop :=
  ∀ (r : Reg) (ix : List Nat), r.key ix ∉ but → r.key ix ∉ judged → t.word r ix = s.word r ix

/-- The memories read the same at every address: DRAM, the flash and the coefficient cells. -/
def State.sameMemory (s t : State) : Prop :=
  ∀ a : Nat, Memory.read dramBlank t.dram a = Memory.read dramBlank s.dram a
    ∧ Memory.read flashBlank t.flash a = Memory.read flashBlank s.flash a
    ∧ Memory.read 0 t.cells a = Memory.read 0 s.cells a

/-- What has left the device beside interrupt messages, the newest first. -/
def State.sends (s : State) : List Output :=
  s.outbox.filter fun o => match o with | .msix _ => false | _ => true

/-- A step from `s` answers a next state. -/
def State.goesOn (s : State) : Prop := ∃ t, step s = .next t

/-- The interrupts are settled: what the signalling remembers of the unit interrupts (R401), and of the event bits and the
enable of the queue pool (R167), is what they are. -/
def State.settled (s : State) : Prop := s.fab.irq = s.irqMsi ∧ s.fab.brm = s.brmEvents ∧ s.fab.brmMsi = s.brmMsi

/-- The transmitter of port `p` is idle and lets traffic of priority 0 through: the link is up, nothing waits, the medium is free,
and no pause holds that priority (R68, R78, R80). -/
def State.txIdle (s : State) (p : Nat) : Bool :=
  s.linkUp p && (s.netPort p).txq.isEmpty && decide ((s.netPort p).free ≤ 50 * s.upNow3) && !s.prioHeld p 0

/-! ## Host accesses -/

/-- The access stands outside any transaction of its own session that is OPEN or DOOMED (R412, R413). -/
def State.alone (s : State) (a : Access) : Bool :=
  !(s.txnOwn a && (s.txnState a.slot == 1 || s.txnState a.slot == 2))

/-- A 4-byte access of `a` reaches copy `ix` of register `r`: the device is not OFF, the master's port does not drain, the
register lies on a word of this device's map, its window answers, no memory window lies there, and this part has the
copy (R1, R20, R391, R392, R434, R439). -/
def State.reaches (s : State) (a : Access) (r : Reg) (ix : List Nat) : Bool :=
  decide (r.addr ix % 4 = 0) && decide (r.addr ix < 0x4000000) && !s.pwr.off && !s.fab.drains.contains (Access.master a) && s.answers (r.addr ix) && (s.windowAt (r.addr ix)).isNone
    && match findReg (r.addr ix) a.slot with | some (e, i) => s.present e i | none => false

/-- The role of the access suffices for every field of register `r` (R394, R441). -/
def State.allows (s : State) (a : Access) (r : Reg) (ix : List Nat) : Bool :=
  match findReg (r.addr ix) a.slot with
  | some (e, _) => e.fields.all fun f => decide (s.needs f ≤ s.roleAt a e)
  | none => false

/-- A host write of `a` to copy `ix` of register `r` goes through: it reaches the register, its role suffices, and it is not
staged in a transaction of its own. -/
def State.admits (s : State) (a : Access) (r : Reg) (ix : List Nat) : Bool :=
  s.reaches a r ix && s.allows a r ix && s.alone a

/-- No transaction holds the copy in its scope, so that its read-write fields may change (R414). -/
def State.unblocked (s : State) (r : Reg) (ix : List Nat) : Bool :=
  directWindow (r.addr ix) || (s.blocks (r.addr ix)).isEmpty

/-- The state in which a host write of `v` that goes through begins to act: its session's transaction window has been touched
(R416), and the audit log has its entry (R424). -/
def State.entered (s : State) (a : Access) (r : Reg) (ix : List Nat) (v : Nat) : State :=
  match findReg (r.addr ix) a.slot with
  | some (e, i) =>
    let t := s.touch a (r.addr ix)
    t.logWrite a (t.writeKind e (changedFields e (t.readBack a (r.addr ix) e i) v) v) (r.addr ix) e i v 0
  | none => s

/-- The answer to a write: none on PCIe, whose writes are posted; one without a value elsewhere (R385, R386, R393). -/
def State.acked (s : State) (a : Access) : State :=
  match a.iface with
  | .pcie => s
  | .spi => s.emit (.answer a [] 0)
  | .tunnel => s.emit (.tunnelAnswer 0 0)

/-- The answer to a read of a value on the interface that made it (R385, R386, R393). -/
def State.answered (s : State) (a : Access) (v : Nat) : State :=
  match a.iface with
  | .pcie => s.emit (.answer a [v] 0)
  | .spi => s.emit (.answer a [v] 0)
  | .tunnel => s.emit (.tunnelAnswer v 0)

/-- The log registers, which an entry of the audit log may change. -/
def logWords : List Nat := [R.LOG_STAT.key [], R.LOG_EVT.key [], R.LOG_CNT_LOST.key []]

/-- The host writes what `v` says into a register: its read-write fields take their values where these lie in their ranges. -/
def State.holds (t : State) (r : Reg) (ix : List Nat) (e : RegEntry) (v : Nat) : Prop :=
  ∀ f ∈ e.fields, f.acc = .rw → f.clamp (f.of (BitVec.ofNat 32 v)) = f.of (BitVec.ofNat 32 v) →
    f.of (t.word r ix) = f.of (BitVec.ofNat 32 v)

/-- What a host write of `v` to copy `ix` of `r` leaves when it goes through and its own effect is `f`. -/
def State.does (s : State) (a : Access) (r : Reg) (ix : List Nat) (v : Nat) (f : State → State) : State :=
  ((f (s.entered a r ix v)).acked a).ended

/-- The word of a write that starts an action: the read-write fields as they read, and the action's bits. -/
def State.actionWord (s : State) (a : Access) (r : Reg) (ix : List Nat) (bits : Nat) : Nat :=
  match findReg (r.addr ix) a.slot with
  | some (e, i) => (rwBits e (s.readBack a (r.addr ix) e i) ||| bits) % 2 ^ 32
  | none => 0

/-! ## Luveren cores -/

/-- Instruction `i` stands at the program counter of the running core `c` and may execute there (R276, R284, R309). -/
def State.issues (s : State) (c : Nat) (i : Instr) : Bool := s.luvAt c i && (s.luv c).legal c i

/-- Instruction `i` of core `c` waits at its place: SYNC while more accesses are outstanding than it lets through (R278), WAITBLK
while any is (R284), and a fabric access while the queue is full (R277). -/
def State.waits (s : State) (c : Nat) (i : Instr) : Bool :=
  let x := s.luv c
  let full (p : AReg) : Bool := decide (0x20000 ≤ (x.set.p.get p).toNat) && decide (4 ≤ x.lsq.length)
  match i with
  | .luvSync _ n => decide (n.val < x.lsq.length)
  | .luvWaitblk _ => !x.lsq.isEmpty
  | .luvLd _ _ p _ => full p
  | .luvSt _ _ p _ => full p
  | .luvStr _ _ p _ _ => full p
  | _ => false

/-- The register set that the instructions of core `c` see (R268). -/
def State.luvRegs (s : State) (c : Nat) : LuvSet := (s.luv c).set

/-- The state in which the instruction at the program counter of core `c` leaves the machine when it writes the register
set `r`: the program counter moves on (R275, R305), and nothing else changes. -/
def State.retired (s : State) (c : Nat) (r : LuvSet) : State := (s.setLuv c ((s.luv c).withSet r).advance).ended

/-- The flags Z, N and V of a result `x`, SV with V, and every other flag as before (R269, R300). -/
def flagsAre (old new : BitVec 16) (x : Int) (v : Bool) : Prop :=
  new.getLsbD 0 = decide (x = 0) ∧ new.getLsbD 1 = decide (x < 0) ∧ new.getLsbD 2 = v
    ∧ new.getLsbD 3 = (v || old.getLsbD 3) ∧ ∀ k, 4 ≤ k → new.getLsbD k = old.getLsbD k

/-- V alone, SV with it, and every other flag as before. -/
def flagVIs (old new : BitVec 16) (v : Bool) : Prop :=
  new.getLsbD 2 = v ∧ new.getLsbD 3 = (v || old.getLsbD 3) ∧ ∀ k, k ≠ 2 → k ≠ 3 → new.getLsbD k = old.getLsbD k

end Sys2Proof.Machine
end

