-- ==== Sys2Proof/WellFormed.lean ====
section
/-!
DEFINITION. Which commands are well-formed: their ports, indices and fields lie within the ranges the manual gives, and
the operands of a Luveren instruction agree with each other as its encoding demands. A command outside these ranges
names something the device does not have, and changes nothing.
-/

namespace Sys2Proof

def portOk (p : Nat) : Bool := decide (p < 2)
def ctxOk (n : Nat) : Bool := decide (n < 256)
def sesOk (n : Nat) : Bool := decide (n < 8)
def queueOk (q : Nat) : Bool := decide (q < 256)
def serialOk (p : Nat) : Bool := decide (p < 32)
def coreOk (c : Nat) : Bool := decide (c < 32)
def directOk (x : Nat) : Bool := decide (32768 ≤ x) && decide (x < 131072)

/-- An access names one of the 8 session slots (R383). -/
def Access.ok (a : Access) : Bool := decide (a.slot < 8)

/-- The operands of a multiply-accumulate agree (R293, R294): a quad has accumulator 0 and no single v register as second
operand, a single no four; the S access is made exactly when the first operand or a parallel load needs it. -/
def MacOps.ok (o : MacOps) : Bool :=
  (!o.quad || o.acc == 0)
    && (match o.second with
      | .kBus _ _ => true
      | .reg _ => !o.quad
      | .quadRegs _ => o.quad)
    && (o.sAcc.isSome == (o.first == .sWord || o.load.isSome))

/-- The extent an LDIA may load (R303). -/
def ldiaOk (f : AFile) (imm : BitVec 18) : Bool := f != .e || decide (imm.toNat ≤ 131072)

/-- The well-formed commands. -/
def Instr.wf : Instr → Bool
  | .registerWrite a _ size _ => a.ok && (size == 1 || size == 2 || size == 4 || size == 8)
  | .safeLoadWrite a _ _ => a.ok
  | .measurementWindowEnd n _ => decide (n < 5)
  | .refLost n => decide (n < 5)
  | .refGlitch n => n == 2 || n == 3
  | .waitToRestoreEnd n => decide (n < 5)
  | .clkBlockRead a => a.ok
  | .timeSnapshotRead a _ p => a.ok && portOk p
  | .counterRead a p i => a.ok && portOk p && decide (i < 64)
  | .ptpSync p _ _ => portOk p
  | .followUp p _ => portOk p
  | .announce p _ => portOk p
  | .delayReq p _ _ => portOk p
  | .delayResp p _ => portOk p
  | .pdelayReq p _ _ _ => portOk p
  | .pdelayResp p _ _ => portOk p
  | .pdelayRespFollowUp p _ => portOk p
  | .syncTransmit p _ => portOk p
  | .announceTransmit p => portOk p
  | .delayReqTransmit p _ => portOk p
  | .fuMissing p => portOk p
  | .drespMissing p => portOk p
  | .announceReceiptTimeout p => portOk p
  | .pdelayHoldEnd p => portOk p
  | .ptpReacq a p => a.ok && portOk p
  | .ptpCtrlWrite a p _ => a.ok && portOk p
  | .txtsPop a p => a.ok && portOk p
  | .linkUp p => portOk p
  | .linkDown p => portOk p
  | .frameReceive p _ => portOk p
  | .pauseExpiry p k => portOk p && decide (k ≤ 8)
  | .tailWrite a p r _ => a.ok && portOk p && decide (r < 12)
  | .hostTransmit p q => portOk p && decide (q < 8)
  | .txDone p q _ => portOk p && decide (q < 8)
  | .flushed a p q => a.ok && portOk p && decide (q < 8)
  | .arpRequest p _ => portOk p
  | .arpReply p _ => portOk p
  | .gratuitousAnnouncement p => portOk p
  | .arpAgeOut p _ => portOk p
  | .arpRetry p _ => portOk p
  | .icmpEcho p _ _ _ _ => portOk p
  | .igmpQuery p _ => portOk p
  | .igmpReport p => portOk p
  | .unsolicitedReport p _ => portOk p
  | .streamPacket p _ _ => portOk p
  | .starved n => ctxOk n
  | .packetRelease n => ctxOk n
  | .txLate n p => ctxOk n && portOk p
  | .identityFadeEnd _ n => ctxOk n
  | .sceneBegin n => sesOk n
  | .objUpdate n => sesOk n
  | .sceneCommit n => sesOk n
  | .sceneAbort n => sesOk n
  | .bye n => sesOk n
  | .nak n => sesOk n
  | .lost n => sesOk n
  | .batchTimeout n => sesOk n
  | .keepaliveSend n => sesOk n
  | .sessionTimeout n => sesOk n
  | .hostClose a n => a.ok && sesOk n
  | .engineOff a => a.ok
  | .ownerWrite a n _ => a.ok && decide (n < 1024)
  | .sapReceiveFrame p _ _ _ _ _ => serialOk p
  | .sapStart p _ => serialOk p
  | .rateWindowEnd p k => serialOk p && k != 0
  | .classNone p => serialOk p
  | .sapTransmitFrame p _ => serialOk p
  | .brmWr a q _ => a.ok && queueOk q
  | .brmFlush a q => a.ok && queueOk q
  | .idleFlush q => queueOk q
  | .pop a q => a.ok && queueOk q.queue
  | .queueReset a q => a.ok && queueOk q
  | .resetComplete q => queueOk q
  | .mdiHalfword t _ _ => decide (t < 8)
  | .mdiDisable a => a.ok
  | .layoutTableWrite a _ _ => a.ok
  | .ghostRelease x => directOk x
  | .routeRelease x => directOk x
  | .delayXfadeEnd k _ => decide (k < 3)
  | .xfDone n => decide (n < 512)
  | .stageGo a _ => a.ok
  | .coefWrite a _ size _ => a.ok && (size == 1 || size == 2 || size == 4 || size == 8)
  | .luvLdia c f _ imm => coreOk c && ldiaOk f imm
  | .luvMpy c o => coreOk c && o.ok
  | .luvMac c o => coreOk c && o.ok
  | .luvMsu c o => coreOk c && o.ok
  | .fabricLoadReturn c => coreOk c
  | .interrupt c => coreOk c
  | .doorbell a c => a.ok && coreOk c
  | .timer c => coreOk c
  | .programWrite a c w _ => a.ok && coreOk c && decide (w < 16384)
  | .coreMemoryAccess a c o _ _ => a.ok && coreOk c && decide (o < 524288)
  | .ringReset a _ => (match a with | some x => x.ok | none => true)
  | .yieldControl a => a.ok
  | .resync a => a.ok
  | .rbAdvance a => a.ok
  | .readPage a => a.ok
  | .programPage a => a.ok
  | .eraseSector a => a.ok
  | .eraseSlot a => a.ok
  | .journalClear a => a.ok
  | .dmaGo a d => a.ok && decide (d < 8)
  | .dmaAbort a d => a.ok && decide (d < 8)
  | .dmaDone d => decide (d < 8)
  | .irqEoi a _ => a.ok
  | .openReq a _ => a.ok
  | .prove a _ => a.ok
  | .sessionClose a => a.ok
  | .keyLoad a _ => a.ok
  | .txnBegin a => a.ok
  | .txnCommit a => a.ok
  | .txnRollback a => a.ok
  | .lifecycleGo a _ => a.ok
  | .revoke a _ => a.ok
  | .logFlush a => match a with | some a => a.ok | none => true
  | .softReset a _ => a.ok
  | .pwrRun a => a.ok
  | .pwrQuiet a => a.ok
  | .pwrStandby a => a.ok
  | .pwrOff a => a.ok
  | .tstWrite a _ _ => a.ok
  | .heldFrameRelease p => portOk p
  | .refRisingEdge e _ => (e.ref == 2 || e.ref == 3) && serialOk e.port
  | .fabricStoreDone c => coreOk c
  | _ => true

end Sys2Proof
end

