-- ==== Sys2Proof/Certificates/Slice0/Obligations.lean ====
section
/-!
DEFINITION. The statements for the provers, by family of commands.
-/

section

open Sys2Proof Sys2Proof.Machine

/-! ## The machine as a whole -/

/-- A step runs exactly the command at the front of the queue on the state with the queue's rest; an empty queue changes
nothing (log entry 13: the model's choice); and every step answers a next state, never a fault and never a refusal. -/
def Obligations.StepRunsFront : Prop :=
  ∀ (s : State),
    (∀ c rest, s.pending = c :: rest → step s = exec c { s with pending := rest })
    ∧ (s.pending = [] → step s = .next s) ∧ s.goesOn

/-- R401: what the signalling remembers of the unit interrupts is what they are, after every step from such a state. -/
def Obligations.StepKeepsSettled : Prop := ∀ (s t : State), s.settled → step s = .next t → t.settled

/-- The state after reset: the device boots with the cause POR, every register of the map holds its reset word, nothing is
listed in any memory, no session and no transaction is open, no command waits, and the interrupts are settled. -/
def Obligations.ResetState : Prop :=
  State.reset.settled ∧ State.reset.booted = false ∧ State.reset.rd F.SYS_RSTCAUSE_CAUSE = 1
    ∧ (∀ (r : Reg) (ix : List Nat), State.reset.word r ix = r.resetAt ix)
    ∧ State.reset.dram = [] ∧ State.reset.flash = [] ∧ State.reset.cells = [] ∧ State.reset.core = []
    ∧ State.reset.sec.ses = [] ∧ State.reset.txn = [] ∧ State.reset.pending = [] ∧ State.reset.fab.irq = 0
    ∧ ∀ c, State.reset.luv c = LuvCore.init

/-- R291 to R308: the Luveren encoding. The word of a well-formed instruction lies in 32 bits and decodes to that
instruction with every operand; a word that decodes at a core is the word of the instruction it decodes to, which is
well-formed. -/
def Obligations.LuverenEncoding : Prop :=
  (∀ (i : Instr) (w : Nat), i.wf = true → encodeLuv i = some w → w < 2 ^ 32 ∧ ∃ c, decodeLuv c w = some i)
  ∧ ∀ (c w : Nat) (i : Instr), c < 32 → w < 2 ^ 32 → decodeLuv c w = some i → encodeLuv i = some w ∧ i.wf = true

/-- R291 to R308: words written out from the encodings of each format, those of the manual's worked example among them, and
words that are illegal. -/
def Obligations.LuverenWords : Prop :=
  let k : MacSecond := .kBus 4 .up
  let mac (v : VReg) : MacOps := { quad := false, first := .reg v, second := k, acc := 0, sAcc := none, load := none }
  decodeLuv 0 0xC4000630
      = some (.luvMpy 0 { quad := false, first := .sWord, second := k, acc := 0, sAcc := some (0, .up), load := some 0 })
    ∧ decodeLuv 0 0xD0400220 = some (.luvMac 0 (mac 1)) ∧ decodeLuv 0 0xE0C00220 = some (.luvMsu 0 (mac 3))
    ∧ decodeLuv 0 0x52440001 = some (.luvSubw 0 8 8 (.imm 1)) ∧ decodeLuv 0 0x40201800 = some (.luvMov 0 4 (.reg 3))
    ∧ decodeLuv 0 0x71030400 = some (.luvRnd 0 3 0 1) ∧ decodeLuv 0 0x64CC0001 = some (.luvSt 0 3 1 (.byImm 1))
    ∧ decodeLuv 0 0x10800100 = some (.luvB 0 .ne 0x100) ∧ decodeLuv 0 0x25000040 = some (.luvLdi 0 5 0x40)
    ∧ decodeLuv 0 0x31000FF0 = some (.luvLdia 0 .p 2 0xFF0) ∧ decodeLuv 0 0x80000010 = some (.luvRep 0 (.imm 16))
    ∧ decodeLuv 0 0x90224000 = some (.luvMovr 0 (.v 1) (.v 9)) ∧ decodeLuv 3 0x02000002 = some (.luvSync 3 2)
    ∧ decodeLuv 0 0x00000000 = some (.luvNop 0) ∧ decodeLuv 0 0xA0000000 = none ∧ decodeLuv 0 0x04000000 = none

/-- What stores and what does not. The end of a staging job, of a flash command, and a reset leave DRAM, the flash and the
coefficient cells in their canonical form; the commands named store nothing in them, and leave every core and every key as
they are. -/
def Obligations.MemoriesStayOrdered : Prop :=
  ∀ (s t : State) (i : Instr),
    (∀ e, i ∈ [Instr.stageDone, .fcmdDone e, .reset] → exec i s = .next t →
      Memory.wf dramBlank s.dram = true → Memory.wf flashBlank s.flash = true → Memory.wf cellBlank s.cells = true →
      Memory.wf dramBlank t.dram = true ∧ Memory.wf flashBlank t.flash = true ∧ Memory.wf cellBlank t.cells = true)
    ∧ ∀ (n p x : Nat) (b : Bool) (f : Iface) (src : UdpFrom),
      i ∈ [Instr.refLost n, .refGlitch n, .waitToRestoreEnd n, .lock, .hoOos, .fuMissing p, .drespMissing p, .pdelayHoldEnd p,
        .gratuitousAnnouncement p, .arpAgeOut p x, .identityFadeEnd b n, .starved n, .challengeExpiry src, .helloIgnoreEnd x,
        .resetComplete n, .swapDone, .ghostRelease n, .routeRelease n, .delayXfadeEnd x n, .xfDone n, .pairFaultInDeassert,
        .por b, .pinReset n, .supply n, .railInWindow n, .expired n, .lockoutEnd f, .txnTimeout n] →
      exec i s = .next t → s.sameMemory t ∧ t.core = s.core ∧ t.keys = s.keys

/-! ## Rules stated whole -/

/-- R18 and R265: what SYS_ID and SYS_CAPS read on each part, and the cores that a part has: core c exists for c from 0 to
SYS_CAPS.CORES_M1, so the OVX-1041 has no cores 16 to 31, whose registers and memories are absent. -/
def Obligations.RulePartsAndCores : Prop :=
  ∀ (s : State) (a : Access),
    let table : Nat × Nat := match s.part with
      | .ovx1051 => (0x0C511051, 0x9A1F6687)
      | .ovx1041 => (0x0C511041, 0x890F0041)
      | .ovx1031 => (0x0C511031, 0x9A1F0602)
    let reads (r : Reg) (v : Nat) : Prop := ∀ e, findReg (r.addr []) a.slot = some (e, []) → s.readBack a (r.addr []) e [] = v
    reads R.SYS_ID table.1 ∧ reads R.SYS_CAPS table.2
    ∧ s.coreCount = F.SYS_CAPS_CORES_M1.of (BitVec.ofNat 32 table.2) + 1
    ∧ (s.part = .ovx1041 → s.coreCount = 16)
    ∧ ∀ c, c < 32 → s.coreCount ≤ c → s.reaches a R.LDCc_CTRL [c] = false ∧ ∀ mem off n, s.windowThere (.core c mem off) n = false

/-- R434: in STANDBY an access outside the SYS, CLK, SEC, LOG, IRQ and BOOT windows and the MAC registers raises UNMAPPED
and has no other effect; one inside them is judged by the register it names. -/
def Obligations.RuleStandbyAccess : Prop :=
  ∀ (s : State) (a : Access) (addr size : Nat) (w : Option Nat),
    s.booted = true → s.rd F.SYS_STAT_PWR = 2 → size = 1 ∨ size = 2 ∨ size = 4 → addr % size = 0 → addr < 0x4000000 →
    let open' := addr < 0x3000 ∨ 0x4000 ≤ addr ∧ addr < 0x5000 ∨ 0x6000 ≤ addr ∧ addr < 0x7000 ∨ 0x20000 ≤ addr ∧ addr < 0x30000
      ∨ 0x100000 ≤ addr ∧ addr < 0x120000 ∨ 0x140000 ≤ addr ∧ addr < 0x160000 ∨ 0x38C0000 ≤ addr ∧ addr < 0x3900000
    (open' → s.answers addr = true)
    ∧ (¬ open' → s.localWord a addr size w = (s, .error .unmapped)
      ∧ (s.pwr.off = false → s.fab.drains.contains (Access.master a) = false → ∀ v, Completes (.registerWrite a addr size v) s fun t =>
        t.rd F.FAB_BERR_INFO_CAUSE = 1 ∧ t.on F.FAB_EVT_BERR = true
          ∧ t.rd F.FAB_CNT_BERR_V = (s.rd F.FAB_CNT_BERR_V + 1) % 2 ^ 32 ∧ s.sameMemory t ∧ t.txn = s.txn))

/-- R302: RND, TRN and STR form v times 2 to the power s exactly. RND and STR divide by 2^23 and round to the nearest
integer, ties away from zero; TRN divides by 2^23 and takes the floor; the result saturates to 24 bits, and V says so. -/
def Obligations.RuleRounding : Prop :=
  ∀ (s : State) (c : Nat) (d : VReg) (j : WReg) (sh : BitVec 6) (p : AReg) (m : PostMod) (sh3 : BitVec 3),
    let r := s.luvRegs c
    let exact (k : Int) : ℚ := ((r.w2.get j).toInt : ℚ) * (2 : ℚ) ^ k / 2 ^ 23
    let near (x : ℚ) : Int := if 0 ≤ x then ⌊x + 1 / 2⌋ else -⌊-x + 1 / 2⌋
    let low (x : Int) : Int := max (-(2 ^ 23)) (min (2 ^ 23 - 1) x)
    let leaves (i : Instr) (x : Int) : Prop := s.issues c i = true → Completes i s fun t =>
      (t.luvRegs c).v.get d = BitVec.ofInt 24 (low x) ∧ flagVIs r.fw (t.luvRegs c).fw (decide (low x ≠ x))
    leaves (.luvRnd c d j sh) (near (exact sh.toInt)) ∧ leaves (.luvTrn c d j sh) ⌊exact sh.toInt⌋
    ∧ (s.issues c (.luvStr c j p m sh3) = true → (r.p.get p).toNat < 0x8000 → Completes (.luvStr c j p m sh3) s fun t =>
      let x := near (exact sh3.toInt)
      Tab.get 0 (t.luv c).smem (r.p.get p).toNat = sampleWord (low x) ∧ flagVIs r.fw (t.luvRegs c).fw (decide (low x ≠ x)))

/-- R279: a fabric access of a core that is answered with a bus error completes: a load writes 0 to its register, a store
has no effect on memory; FABERR is set and counted, and the core goes on running. -/
def Obligations.RuleFabricError : Prop :=
  ∀ (s : State) (c : Nat) (e : LsqEntry) (rest : List LsqEntry) (cause : BusCause), c < 32 →
    (s.luv c).lsq = e :: rest → s.fab.drains.contains (16 + c) = false → s.lsqTarget e.addr = .fault cause →
    let failed (t : State) : Prop := (t.luv c).lsq = rest ∧ t.on F.LDCc_EVT_FABERR [c] = true
      ∧ t.rd F.LDCc_CNT_FABERR_V [c] = (s.rd F.LDCc_CNT_FABERR_V [c] + 1) % 2 ^ 32 ∧ t.luvState c = s.luvState c
      ∧ s.sameMemory t ∧ (t.luv c).smem = (s.luv c).smem ∧ (t.luv c).kmem = (s.luv c).kmem
    (e.store = none → Completes (.fabricLoadReturn c) s fun t =>
      failed t ∧ (if e.shadow then (t.luv c).shadow else (t.luv c).main).v.get e.dest = 0)
    ∧ (e.store.isSome = true → Completes (.fabricStoreDone c) s fun t =>
      failed t ∧ (t.luv c).main = (s.luv c).main ∧ (t.luv c).shadow = (s.luv c).shadow)

/-! ## Luveren cores -/

/-- R299, R300: ADD, SUB, NEG, ABS and ASL put the exact result, saturated to 24 bits, into the destination; Z and N come
from the saturated result, V says whether it saturated, and SV stays set. R299, R300: the operations whose results never
saturate, with Z and N from the result as a signed number and V 0. -/
def Obligations.LuverenArithmetic : Prop :=
  (∀ (s : State) (c : Nat) (dd da : VReg),
    let r := s.luvRegs c
    let leaves (i : Instr) (x : Int) : Prop := s.issues c i = true → Completes i s fun t =>
      (t.luvRegs c).v.get dd = BitVec.ofInt 24 (sat24 x)
        ∧ flagsAre r.fw (t.luvRegs c).fw (sat24 x) (decide (sat24 x ≠ x))
    (∀ b : AluB, leaves (.luvAdd c dd da b) (r.vS da + (r.aluB b).toInt)
      ∧ leaves (.luvSub c dd da b) (r.vS da - (r.aluB b).toInt))
    ∧ leaves (.luvNeg c dd da) (-(r.vS da))
    ∧ leaves (.luvAbs c dd da) ((r.vS da).natAbs : Int)
    ∧ ∀ b : ShiftB, leaves (.luvAsl c dd da b) (r.vS da * ((2 ^ r.shiftB b : Nat) : Int)))
  ∧
  (∀ (s : State) (c : Nat) (dd da : VReg),
    let r := s.luvRegs c
    let a := r.v.get da
    let leaves (i : Instr) (x : BitVec 24) : Prop := s.issues c i = true → Completes i s fun t =>
      (t.luvRegs c).v.get dd = x ∧ flagsAre r.fw (t.luvRegs c).fw x.toInt false
    (∀ b : AluB, leaves (.luvAddw c dd da b) (a + r.aluB b) ∧ leaves (.luvSubw c dd da b) (a - r.aluB b)
      ∧ leaves (.luvAnd c dd da b) (a &&& r.aluB b) ∧ leaves (.luvOr c dd da b) (a ||| r.aluB b)
      ∧ leaves (.luvXor c dd da b) (a ^^^ r.aluB b)
      ∧ leaves (.luvMin c dd da b) (BitVec.ofInt 24 (min a.toInt (r.aluB b).toInt))
      ∧ leaves (.luvMax c dd da b) (BitVec.ofInt 24 (max a.toInt (r.aluB b).toInt)))
    ∧ leaves (.luvNot c dd da) (~~~a)
    ∧ ∀ b : ShiftB, leaves (.luvAsr c dd da b) (BitVec.ofInt 24 (a.toInt / ((2 ^ r.shiftB b : Nat) : Int)))
      ∧ leaves (.luvLsr c dd da b) (a >>> r.shiftB b))

/-- R299, R304, R306: LDI, MOV and SEL write a register and no flag, SEL by the flags of one instruction before; CMP writes
the flags of the exact difference and no register; MOVR between v registers, and to and from the flag word. R303, R304,
R273, R271: an address register takes the value of LDIA or MOVR after two further instructions (it waits at the end of the
late writes), and MODI moves a pointer inside its ring at once, from where the pointer and its extent stood before. -/
def Obligations.LuverenMoves : Prop :=
  (∀ (s : State) (c : Nat) (d a : VReg),
    let r := s.luvRegs c
    let leaves (i : Instr) (x : BitVec 24) : Prop := s.issues c i = true → Completes i s fun t =>
      (t.luvRegs c).v.get d = x ∧ (t.luvRegs c).fw = r.fw
    (∀ imm, leaves (.luvLdi c d imm) imm)
    ∧ (∀ b : AluB, leaves (.luvMov c d b) (r.aluB b)
      ∧ (s.issues c (.luvCmp c a b) = true → Completes (.luvCmp c a b) s fun t =>
          (t.luvRegs c).v = r.tick.v ∧ flagsAre r.fw (t.luvRegs c).fw (r.vS a - (r.aluB b).toInt) false))
    ∧ (∀ (b : VReg) (k : Cond), leaves (.luvSel c d a b k) (if condHolds k r.fw1 then r.v.get a else r.v.get b))
    ∧ leaves (.luvMovr c (.v d) (.v a)) (r.v.get a)
    ∧ leaves (.luvMovr c (.v d) .fw) (r.fw.zeroExtend 24)
    ∧ (s.issues c (.luvMovr c .fw (.v a)) = true → Completes (.luvMovr c .fw (.v a)) s fun t =>
        (t.luvRegs c).fw = (r.v.get a).truncate 16 &&& 0x013F ∧ (t.luvRegs c).v = r.tick.v))
  ∧
  (∀ (s : State) (c : Nat) (n : AReg),
    let r := s.luvRegs c
    let waits (i : Instr) (q : LateReg) (x : Nat) : Prop := s.issues c i = true → Completes i s fun t =>
      (t.luvRegs c).late = r.tick.late ++ [{ reg := q, val := x, left := 2 }]
        ∧ (t.luvRegs c).p = r.tick.p ∧ (t.luvRegs c).u = r.tick.u ∧ (t.luvRegs c).e = r.tick.e
        ∧ (t.luvRegs c).fw = r.fw
    (∀ (f : AFile) (imm : BitVec 18), waits (.luvLdia c f n imm) (lateReg f n) imm.toNat)
    ∧ (∀ a : VReg, waits (.luvMovr c (.p n) (.v a)) (.p n) ((r.v.get a).toNat % 262144)
      ∧ waits (.luvMovr c (.e n) (.v a)) (.e n) (min 131072 ((r.v.get a).toNat % 262144)))
    ∧ ∀ imm : BitVec 18, s.issues c (.luvModi c n imm) = true → Completes (.luvModi c n imm) s fun t =>
        (t.luvRegs c).p.get n
            = BitVec.ofNat 18 (ringStep (r.p.get n).toNat (r.e.get n).toNat imm.toInt)
          ∧ (t.luvRegs c).fw = r.fw)

/-- R301, R302, R273: an instruction other than a multiply-accumulate reads an accumulator as it stood two instructions
before; the results saturate to 56 or 24 bits with V and SV, and LDA, MOVA and CLR write no flag. R293, R270: a single
multiply-accumulate of two registers gives its accumulator the product, its old value plus the product, or its old value
less the product, saturated to 56 bits with V and SV; it sees the accumulator as the instruction before left it. The
accumulators it does not name keep their values. -/
def Obligations.LuverenWide : Prop :=
  (∀ (s : State) (c : Nat) (j k : WReg) (d : VReg),
    let r := s.luvRegs c
    let x := (r.w2.get j).toInt
    let y := (r.w2.get k).toInt
    let plain (i : Instr) (v : BitVec 56) : Prop := s.issues c i = true → Completes i s fun t =>
      (t.luvRegs c).w.get j = v ∧ (t.luvRegs c).fw = r.fw
    let summed (i : Instr) (v : Int) : Prop := s.issues c i = true → Completes i s fun t =>
      (t.luvRegs c).w.get j = BitVec.ofInt 56 (sat56 v) ∧ flagVIs r.fw (t.luvRegs c).fw (decide (sat56 v ≠ v))
    let rounded (i : Instr) (v : Int) : Prop := s.issues c i = true → Completes i s fun t =>
      (t.luvRegs c).v.get d = BitVec.ofInt 24 (sat24 v) ∧ flagVIs r.fw (t.luvRegs c).fw (decide (sat24 v ≠ v))
    plain (.luvLda c j d) (BitVec.ofInt 56 (r.vS d * 8388608))
    ∧ plain (.luvMova c j k) (r.w2.get k)
    ∧ (∀ mask : BitVec 4, mask.getLsbD j.val = true → plain (.luvClr c mask) 0)
    ∧ summed (.luvAdda c j k) (x + y) ∧ summed (.luvSuba c j k) (x - y)
    ∧ (∀ sh : BitVec 6, summed (.luvSha c j sh) ((shifted x sh.toInt).1 / ((shifted x sh.toInt).2 : Int))
      ∧ rounded (.luvRnd c d j sh) (rndValue x sh.toInt) ∧ rounded (.luvTrn c d j sh) (trnValue x sh.toInt)))
  ∧
  (∀ (s : State) (c : Nat) (o : MacOps) (a b : VReg),
    let r := s.luvRegs c
    let prod := r.vS a * r.vS b
    let old := (r.w.get o.acc).toInt
    let leaves (i : Instr) (x : Int) : Prop := s.issues c i = true → Completes i s fun t =>
      (t.luvRegs c).w.get o.acc = BitVec.ofInt 56 (sat56 x)
        ∧ (∀ k, k ≠ o.acc → (t.luvRegs c).w.get k = r.w.get k)
        ∧ flagVIs r.fw (t.luvRegs c).fw (decide (sat56 x ≠ x))
    o.quad = false → o.first = .reg a → o.second = .reg b → o.sAcc = none → o.load = none →
      leaves (.luvMpy c o) prod ∧ leaves (.luvMac c o) (old + prod) ∧ leaves (.luvMsu c o) (old - prod))

/-- R297, R266: below the fabric window a load reads its word at once and its register takes it one instruction later; a
store of a register into S memory writes the sign-extended word; STR stores the rounded, saturated accumulator. At a fabric
address with room in the queue, the access joins the queue (R277). -/
def Obligations.LuverenLoadsAndStores : Prop :=
  ∀ (s : State) (c : Nat) (d : VReg) (j : WReg) (p : AReg) (m : PostMod) (sh : BitVec 3),
    let r := s.luvRegs c
    let a := (r.p.get p).toNat
    let word := sampleWord (r.vS d)
    let v := rndValue (r.w2.get j).toInt sh.toInt
    (s.issues c (.luvLd c d p m) = true → a < 0x20000 → Completes (.luvLd c d p m) s fun t =>
      (t.luvRegs c).late = r.tick.late ++ [{ reg := .v d, val := s.luvRead c a, left := 1 }]
        ∧ (t.luvRegs c).p = (r.tick.postMod r p m).p ∧ (t.luv c).lsq = (s.luv c).lsq)
    ∧ (s.issues c (.luvSt c d p m) = true → a < 0x8000 → Completes (.luvSt c d p m) s fun t =>
      (∀ k, Tab.get 0 (t.luv c).smem k = if k = a then word else Tab.get 0 (s.luv c).smem k)
        ∧ (t.luvRegs c).fw = r.fw ∧ (t.luvRegs c).p = (r.tick.postMod r p m).p)
    ∧ (s.issues c (.luvStr c j p m sh) = true → a < 0x8000 → Completes (.luvStr c j p m sh) s fun t =>
      (∀ k, Tab.get 0 (t.luv c).smem k = if k = a then sampleWord (sat24 v) else Tab.get 0 (s.luv c).smem k)
        ∧ flagVIs r.fw (t.luvRegs c).fw (decide (sat24 v ≠ v)))
    ∧ (s.issues c (.luvSt c d p m) = true → 0x20000 ≤ a → (s.luv c).lsq.length < 4 → Completes (.luvSt c d p m) s fun t =>
      (t.luv c).lsq = (s.luv c).lsq ++ [{ addr := s.luvFabric c a, store := some word, dest := 0, shadow := false }])

/-- R275, R276, R278, R282, R305 to R308: where the flow instructions take the program counter. NOP passes: a repeat keeps it, the
last delay slot of a taken branch goes to the target. A branch whose condition holds is followed by its two delay slots and its
target; a call pushes the address of the CALL plus 3 (no repeat of two runs stands before these and SYNC, since REP before them is
illegal, R305). REP begins the runs of the next word, SYNC passes or waits, and RTI returns, at the last of its runs. -/
def Obligations.LuverenFlow : Prop :=
  ∀ (s : State) (c : Nat) (k : Cond) (target : BitVec 14),
    let x := s.luv c
    let taken := condHolds k x.set.fw1
    let slotsOf (t : State) (goal : Option (BitVec 14)) : Prop :=
      (t.luv c).pc = x.pc + 1 ∧ (t.luv c).slots = 2 ∧ (t.luv c).target = goal
    (s.issues c (.luvNop c) = true → Completes (.luvNop c) s fun t =>
        (t.luv c).pc = (if 2 ≤ x.rep then x.pc else if x.slots = 1 then x.target.getD (x.pc + 1) else x.pc + 1)
          ∧ (t.luv c).rep = x.rep - 1 ∧ (t.luv c).slots = if 2 ≤ x.rep then x.slots else x.slots - 1)
    ∧ (x.rep < 2 →
      (s.issues c (.luvB c k target) = true → Completes (.luvB c k target) s fun t =>
        slotsOf t (if taken then some target else none) ∧ (t.luv c).stack = x.stack)
      ∧ (s.issues c (.luvCall c k target) = true → Completes (.luvCall c k target) s fun t =>
        slotsOf t (if taken then some target else none)
          ∧ (t.luv c).stack = if taken then (x.pc + 3) :: x.stack else x.stack)
      ∧ (s.issues c (.luvRet c k) = true → Completes (.luvRet c k) s fun t =>
        slotsOf t (if taken then some (x.stack.headD 0) else none)
          ∧ (t.luv c).stack = if taken then x.stack.tail else x.stack)
      ∧ (∀ n : Fin 4, s.issues c (.luvSync c n) = true → x.lsq.length ≤ n.val → Completes (.luvSync c n) s fun t =>
        (t.luv c).pc = x.pc + 1))
    ∧ (∀ n : Fin 4, s.issues c (.luvSync c n) = true → n.val < x.lsq.length → Completes (.luvSync c n) s fun t =>
        t.luv c = { x with stalls := true })
    ∧ (∀ n : RepCount, s.issues c (.luvRep c n) = true → Completes (.luvRep c n) s fun t =>
        let k := match n with
          | .imm i => i.toNat
          | .reg v => (x.set.v.get v).toNat % 65536
        (t.luv c).pc = x.pc + 1 ∧ (t.luv c).rep = if k = 0 then 65536 else k)
    ∧ (s.issues c (.luvRti c) = true → Completes (.luvRti c) s fun t =>
        (t.luv c).pc = (if 2 ≤ x.rep then x.pc else x.ret) ∧ (t.luv c).inShadow = false ∧ (t.luv c).stack = x.stack)

/-- R284, R282, R292, R277: WAITBLK with an empty queue ends the block; an illegal word halts the core; a pending, enabled
source at an instruction boundary enters the handler with the return address saved; the timer ends; the oldest load of the
queue returns, and the oldest store is accepted, where they reach DRAM. -/
def Obligations.LuverenCoreEvents : Prop :=
  ∀ (s : State) (c : Nat), c < 32 →
    let x := s.luv c
    (s.issues c (.luvWaitblk c) = true → x.lsq = [] → Completes (.luvWaitblk c) s fun t =>
      t.luvState c = 2 ∧ t.rd F.LDCc_CNT_BLOCKS_V [c] = (s.rd F.LDCc_CNT_BLOCKS_V [c] + 1) % 2 ^ 32)
    ∧ (s.luvRuns c = true → x.fetch c x.pc = none → Completes (.luvIllegal c) s fun t =>
      t.luvState c = 3 ∧ t.on F.LDCc_EVT_ILLEGAL [c] = true ∧ t.on F.LDCc_EVT_WDOG [c] = true)
    ∧ (s.luvTakes c = true → Completes (.interrupt c) s fun t =>
      (t.luv c).inShadow = true ∧ (t.luv c).ret = x.pc
        ∧ (t.luv c).pc = BitVec.ofNat 14 (s.rd F.LDCc_VEC_IRQ_VEC [c]))
    ∧ (c < s.coreCount → s.rd F.LDCc_TIMER_COUNT [c] ≠ 0 →
        s.elapsed x.timer3 (s.rd F.LDCc_TIMER_COUNT [c] * 1000000 / 204800) = true →
      Completes (.timer c) s fun t => t.rd F.LDCc_TIMER_COUNT [c] = 0 ∧ t.rd F.LDCc_IRQ_PEND_TIMER [c] = 1)
    ∧ (∀ e rest off, x.lsq = e :: rest → e.store = none → s.fab.drains.contains (16 + c) = false →
        s.lsqTarget e.addr = .dram off → Completes (.fabricLoadReturn c) s fun t =>
      (t.luv c).lsq = rest
        ∧ (if e.shadow then (t.luv c).shadow else (t.luv c).main).v.get e.dest = BitVec.ofNat 24 (ofLe (s.dramRead off 4)))
    ∧ (∀ e rest v off, x.lsq = e :: rest → e.store = some v → s.fab.drains.contains (16 + c) = false →
        s.lsqTarget e.addr = .dram off → Completes (.fabricStoreDone c) s fun t =>
      (t.luv c).lsq = rest ∧ t.dram = (s.dramWrite off (leBytes 4 v)).dram)

/-- R275, R284: every Luveren instruction that stands at the program counter of a running core, may execute there, and does not
wait, completes: it is counted as issued, and every other core is as it was. R266, R268, R299: an instruction that works on
registers only leaves every other core, every register of the map and every memory as they are; on its own core it leaves the
other register set, S and K memory, the output frames, the queue and the return stack as they are. -/
def Obligations.LuverenRegisterInstructionFrame : Prop :=
  (∀ (s : State) (c : Nat) (i : Instr), s.issues c i = true → s.waits c i = false → Completes i s fun t =>
    (t.luv c).issued = (s.luv c).issued + 1 ∧ ∀ c', c' ≠ c → t.luv c' = s.luv c')
  ∧
  (∀ (s t : State) (c : Nat) (i : Instr) (dd da db : VReg) (b : AluB) (sb : ShiftB) (j k : WReg) (sh : BitVec 6)
    (q : Cond) (n : AReg) (f : AFile) (imm : BitVec 24) (im : BitVec 18) (mask : BitVec 4) (o : MacOps) (p1 p2 : MovReg),
    i ∈ [Instr.luvNop c, .luvLdi c dd imm, .luvLdia c f n im, .luvModi c n im, .luvMov c dd b, .luvAdd c dd da b,
      .luvSub c dd da b, .luvAddw c dd da b, .luvSubw c dd da b, .luvNeg c dd da, .luvAbs c dd da, .luvAnd c dd da b,
      .luvOr c dd da b, .luvXor c dd da b, .luvNot c dd da, .luvAsl c dd da sb, .luvAsr c dd da sb, .luvLsr c dd da sb,
      .luvMin c dd da b, .luvMax c dd da b, .luvCmp c da b, .luvSel c dd da db q, .luvClr c mask, .luvRnd c dd j sh,
      .luvTrn c dd j sh, .luvLda c j dd, .luvAdda c j k, .luvSuba c j k, .luvSha c j sh, .luvMova c j k,
      .luvMovr c p1 p2, .luvMpy c o, .luvMac c o, .luvMsu c o] →
    s.issues c i = true → exec i s = .next t →
      s.sameWords t [] ∧ s.sameMemory t ∧ (∀ c', c' ≠ c → t.luv c' = s.luv c')
        ∧ (t.luv c).smem = (s.luv c).smem ∧ (t.luv c).kmem = (s.luv c).kmem ∧ (t.luv c).frames = (s.luv c).frames
        ∧ (t.luv c).lsq = (s.luv c).lsq ∧ (t.luv c).stack = (s.luv c).stack
        ∧ (t.luv c).inShadow = (s.luv c).inShadow
        ∧ (if (s.luv c).inShadow then (t.luv c).main = (s.luv c).main else (t.luv c).shadow = (s.luv c).shadow))

/-! ## Clock and time -/

/-- R12, R25, R21: at a block tick of a device that stands in STANDBY with its time set, the block number goes up by one and
local time by the length of a block: the engines do nothing, and nothing leaves a device whose transmitters have nothing waiting.
R13 to R16, R21: the order of every block tick of a device that has power. The block that ends is passed on, mixed and sent round
the ring, where audio runs; time goes on, the clock is steered, audio may start, and the PTP engines, the transmitters and the power
states have their tick; then come the steps of the boundary, and the work of the block that begins. -/
def Obligations.ClockTick : Prop :=
  (∀ (s : State) (phase : Int), s.pwr.off = false → s.pwr.held = false → s.pwr.crit = false → s.rd F.SYS_STAT_PWR = 2 →
    s.pwr.exit = false → s.pwr.goal = none → s.pwr.ramp = 0 → s.time.started = true → s.time.timeSet = true →
    Completes (.blockTick phase) s fun t =>
      t.time.block = s.time.block + 1 ∧ t.time.local3 = s.time.local3 + s.block3 ∧ t.time.up3 = s.time.up3 + s.block3
        ∧ t.scene = s.scene ∧ t.pipe = s.pipe ∧ s.sameMemory t
        ∧ (s.clk.pps = none → (∀ p, p < 2 → (s.netPort p).txq = []) → t.sends = s.sends))
  ∧
  (∀ (s : State) (phase : Int), s.pwr.off = false → s.pwr.held = false → s.pwr.crit = false →
    let stood := s.recordLocked
    let ends := if s.audio then (if stood.rendersAll then stood.ospBlockEnd else stood).finishBlock else (stood, [], [])
    let timed := (ends.1.advanceTime.clockTick phase).startAudio.clockOutputs
    let powered := (if timed.awake then (timed.ptpTick 0).ptpTick 1 else timed).netTick.pwrTick
    let begins := if powered.running && powered.awake then powered.bypassTick.tstTick else powered
    exec (.blockTick phase) s
      = .next (if begins.audio then begins.boundary.blockWork s.audio ends.2.1 ends.2.2 else begins).ended)

/-- R461, R32: the end of a measurement window of an enabled reference that is neither lost nor waiting for a window. Its
figure is reported; within RANGE the check has passed, and a DISQUALIFIED or MISMATCH reference waits; outside RANGE the
event is raised and the check has failed. R41, R42, R32: the checks of a reference. Lost activity disqualifies with reason
1; a period outside its window with reason 2, whether reported or judged at the edge; a good period shows activity; an edge of
another serial port than the one that CLK_REF3_CFG.SAP_PORT names is none of reference 3; a reference that has waited out WTR
qualifies. -/
def Obligations.ClockReferences : Prop :=
  (∀ (s : State) (n : Nat) (rate : Int),
    n < 5 → s.refOn n = true → s.qual n ≠ 0 → (s.ref n).hold = false → (s.ref n).lost = false →
    ((n = 2 ∨ n = 3) → (s.refNom n).isSome = true) →
    Completes (.measurementWindowEnd n rate) s fun t =>
      t.rd F.CLK_REFn_RATE_RATE [n] = ofSigned 32 rate ∧ (t.ref n).off = s.offsetOf n rate
        ∧ ((s.offsetOf n rate).natAbs ≤ s.rd F.CLK_QUAL_RANGE * 600000 →
          (t.ref n).passed = true ∧ (t.ref n).runLen = 0 ∧ t.qual n = if s.qual n = 1 ∨ s.qual n = 4 then 2 else s.qual n)
        ∧ (s.rd F.CLK_QUAL_RANGE * 600000 < (s.offsetOf n rate).natAbs →
          (t.ref n).passed = false ∧ t.on F.CLK_EVT_RANGE = true ∧ (t.qual n = 1 ∨ t.qual n = 4)))
  ∧
  (∀ (s : State) (n : Nat),
    let glitched (t : State) : Prop := t.qual n = 1 ∧ t.rd F.CLK_REFn_STAT_REASON [n] = 2 ∧ t.on F.CLK_EVT_REF_GLITCH = true
      ∧ (t.ref n).hold = true ∧ (t.ref n).clean = 0
    (n < 5 → s.refOn n = true → s.qual n ≠ 0 → (s.ref n).lost = false → Completes (.refLost n) s fun t =>
      t.qual n = 1 ∧ t.rd F.CLK_REFn_STAT_REASON [n] = 1 ∧ (t.ref n).lost = true
        ∧ ((s.ref n).seen = true → t.on F.CLK_EVT_REF_LOST = true))
    ∧ (s.edgeRef n = true → s.qual n ≠ 0 → Completes (.refGlitch n) s glitched)
    ∧ (∀ port ps, port ≠ s.rd F.CLK_REFn_CFG_SAP_PORT [3] → Completes (.refRisingEdge ⟨3, port⟩ ps) s fun t =>
      t.clk = s.clk ∧ s.sameWords t [])
    ∧ (∀ hz port ps, s.edgeRef n = true → s.qual n ≠ 0 → s.refNom n = some hz →
      (n = 3 → port = s.rd F.CLK_REFn_CFG_SAP_PORT [3]) →
      (periodGood hz ps = false → Completes (.refRisingEdge ⟨n, port⟩ ps) s glitched)
      ∧ (periodGood hz ps = true → (s.ref n).srcBad = false → Completes (.refRisingEdge ⟨n, port⟩ ps) s fun t =>
        (t.ref n).seen = true ∧ (t.ref n).lost = false ∧ (t.ref n).hold = false
          ∧ ((s.ref n).hold = true → (s.ref n).fbad = false → s.qual n = 1 → t.qual n = 2)))
    ∧ (n < 5 → s.qual n = 2 → (s.ref n).passed = true → s.wtrBlocks ≤ (s.ref n).clean →
      Completes (.waitToRestoreEnd n) s fun t => t.qual n = 3 ∧ s.sameWords t [R.CLK_REFn_STAT.key [n]]))

/-- R39, R46, R30: a pull that has stayed within LOCKWIN for more than 1 s locks; a holdover timer that expires within the
present block raises HO_OOS; a member of the ring that first holds ring time starts with the head's block and epoch, gridded where that epoch is 0; its local
time stays as it is (R57; log entry 150: the model's choice). -/
def Obligations.ClockStates : Prop :=
  ∀ (s : State),
    (s.rd F.CLK_STAT_STATE = 1 → s.blocksPerSec < s.clk.inWin → Completes .lock s fun t =>
      t.rd F.CLK_STAT_STATE = 2 ∧ t.on F.CLK_EVT_LOCK = true ∧ t.clk.lockTicks = 0 ∧ t.clk.hist = [])
    ∧ (∀ ms, s.clk.hoMs = some ms → s.rd F.CLK_STAT_STATE = 3 → ms * 3000000 ≤ (s.clk.hoTicks + 1) * s.block3 →
      Completes .hoOos s fun t =>
        t.on F.CLK_STAT_HO_OOS = true ∧ t.on F.CLK_EVT_HO_OOS = true ∧ t.clk.hoMs = none ∧ t.rd F.CLK_STAT_STATE = 3)
    ∧ (∀ block epoch, s.on F.CAS_CFG_EN = true → s.isHead = false → s.time.armed = true → s.time.started = false →
      Completes (.ringTimeHeld block epoch) s fun t =>
        t.time.started = true ∧ t.time.ringHeld = true ∧ t.time.block = block ∧ t.time.epoch3 = 3 * epoch
          ∧ t.time.local3 = s.time.local3 ∧ (epoch = 0 → t.on F.CLK_STAT_GRIDDED = true))

/-! ## PTP -/

/-- R51, R53, R64: a two-step Sync of the parent waits for its Follow_Up; the Follow_Up with its sequence number completes
it, and so does a one-step Sync: a port towards SLAVE is SLAVE from then on. R49, R53, R64: the answers to a port's own
delay requests. The mean path delay of a request-response exchange is half the sum of both directions less the corrections,
that of a peer exchange comes from the four stamps, with delayAsymmetry added to the correction of its first answer (R54); a delay
from 0 to PDMAX is held, and PD_VALID is set. -/
def Obligations.PtpMeasurements : Prop :=
  (∀ (s : State) (p : Nat) (m : PtpMsg) (t2 : Nat),
    p < 2 → s.ptpRuns p = true → ptpMalformed m = false → s.ptpForeignDomain p m = false → s.fromParent p m = true →
    (m.twoStep = true → Completes (.ptpSync p m t2) s fun t =>
      (t.ptpPort p).pendSync = some { seq := m.seq, at3 := s.time.up3, t2 := s.ingress p t2, corr := m.correction }
        ∧ t.portState p = s.portState p)
    ∧ (m.twoStep = false → Completes (.ptpSync p m t2) s fun t =>
      t.portState p = 9 ∧ (t.ptpPort p).pendSync = none
        ∧ (t.ptpPort p).lastSync = some ((m.time : Int) * 65536, s.ingress p t2, m.correction))
    ∧ (∀ y, (s.ptpPort p).pendSync = some y → y.seq = m.seq → Completes (.followUp p m) s fun t =>
      t.portState p = 9 ∧ (t.ptpPort p).pendSync = none
        ∧ (t.ptpPort p).lastSync = some ((m.time : Int) * 65536, y.t2, y.corr + m.correction)))
  ∧
  (∀ (s : State) (p : Nat) (m : PtpMsg) (t4 : Nat) (y : PendingDelay),
    p < 2 → s.ptpRuns p = true → ptpMalformed m = false → s.ptpForeignDomain p m = false →
    s.exchangeOf p m = some y → y.done = false →
    let fits (d : Int) : Prop := 0 ≤ d ∧ d ≤ (s.rd F.PTP_PDMAX_MAX [p] : Int) * 65536
    let held (t : State) (d : Int) : Prop := (t.ptpPort p).mpd = d ∧ t.on F.PTP_STAT_PD_VALID [p] = true
    (∀ t1 t2 c, y.peer = false → s.fromParent p m = true → (s.ptpPort p).lastSync = some (t1, t2, c) →
      let d := roundDiv ((t2 - y.t1) + ((m.time : Int) * 65536 - t1) - (c + s.rdS F.PTP_ASYM_ASYM [p]) - m.correction) 2
      fits d → Completes (.delayResp p m) s fun t => held t d ∧ t.exchangeOf p m = none)
    ∧ (y.peer = true → y.responses = 0 → m.twoStep = true → Completes (.pdelayResp p m t4) s fun t =>
      t.exchangeOf p m = some { y with
        responses := 1, t2 := (m.time : Int) * 65536, t4 := s.ingress p t4
        corr := m.correction + s.rdS F.PTP_ASYM_ASYM [p] })
    ∧ (y.peer = true → y.responses = 1 →
      let d := roundDiv ((y.t4 - y.t1) - ((m.time : Int) * 65536 - y.t2) - y.corr - m.correction) 2
      fits d → Completes (.pdelayRespFollowUp p m) s fun t => held t d))

/-- R50: an acceptable Announce lists its sender with its data among the port's foreign masters. R49: after three
Announce intervals without one, a listening port that follows no master becomes MASTER. R49: the 300 s without peer requests end.
R64: errors 5 and 7. A Sync that has waited a Sync interval for its Follow_Up is discarded; a request that has waited 1 s for its
answer is, and the run of missing answers grows. Both are counted. -/
def Obligations.PtpTimeouts : Prop :=
  (∀ (s : State) (p : Nat), p < 2 → s.ptpRuns p = true →
    (∀ (m : PtpMsg) (d : AnnounceData), ptpMalformed m = false → s.ptpForeignDomain p m = false → m.ann = some d →
        s.announceBad p m d = false → Completes (.announce p m) s fun t =>
      ∃ f ∈ (t.ptpPort p).foreign, f.srcId = m.srcId ∧ f.srcPort = m.srcPort ∧ f.data = d)
    ∧ (s.isBoundary = false → s.portState p = 4 → (s.ptpPort p).parent = none →
      s.elapsed (s.announceHeard3 p) (3 * s.annSec3 p) = true → Completes (.announceReceiptTimeout p) s fun t =>
        t.portState p = 6 ∧ (t.ptpPort p).foreign = [])
    ∧ (∀ since3, (s.ptpPort p).pdHold = some since3 → s.elapsed since3 900000000000 = true → Completes (.pdelayHoldEnd p) s fun t =>
      (t.ptpPort p).pdHold = none ∧ s.sameWords t []))
  ∧
  (∀ (s : State) (p : Nat), p < 2 →
    (∀ y, (s.ptpPort p).pendSync = some y → s.elapsed y.at3 (s.syncSec3 p) = true → Completes (.fuMissing p) s fun t =>
      (t.ptpPort p).pendSync = none ∧ t.on F.PTP_EVT_FU_MISSING [p] = true
        ∧ t.rd F.PTP_ERRLOG_CODE [p] = 5 ∧ t.rd F.PTP_ERRLOG_SEQ [p] = y.seq % 65536
        ∧ t.rd F.PTP_CNT_FU_MISSING_V [p] = (s.rd F.PTP_CNT_FU_MISSING_V [p] + 1) % 2 ^ 32)
    ∧ (∀ y, (s.ptpPort p).exchanges.reverse.find? (fun y => !y.done && s.elapsed y.at3 3000000000) = some y →
      (s.ptpPort p).missRun < 15 → Completes (.drespMissing p) s fun t =>
        (∀ z ∈ (t.ptpPort p).exchanges, z.seq ≠ y.seq) ∧ (t.ptpPort p).missRun = (s.ptpPort p).missRun + 1
          ∧ t.rd F.PTP_ERRLOG_CODE [p] = 7
          ∧ t.rd F.PTP_CNT_DRESP_MISSING_V [p] = (s.rd F.PTP_CNT_DRESP_MISSING_V [p] + 1) % 2 ^ 32))

/-- R49, R52, R53, R54: what the engine sends, with its times, corrections and intervals. A MASTER answers a Delay_Req, and, when an
interval has passed since the last (log entry 156), sends a two-step Sync with its Follow_Up and announces; a port with peer delay
answers a Pdelay_Req; a request takes the next sequence number and carries delayAsymmetry with a minus sign. -/
def Obligations.PtpTransmissions : Prop :=
  ∀ (s : State) (p : Nat) (m : PtpMsg) (ta tb : Nat), p < 2 → s.ptpRuns p = true →
    let heard := ptpMalformed m = false ∧ s.ptpForeignDomain p m = false
    let x := s.ptpPort p
    (heard → s.portState p = 6 → s.peerDelay p = false → Completes (.delayReq p m ta) s fun t =>
      t.sends = .ptpDelayResp p m.seq (stampNs (s.ingress p ta)) m.srcId m.srcPort (m.correction - stampFrac (s.ingress p ta))
        (s.rdS F.PTP_CTRL_LOG_DREQ [p]) :: s.sends)
    ∧ (heard → s.peerDelay p = true → Completes (.pdelayReq p m ta tb) s fun t =>
      t.sends = .ptpPdelayRespFollowUp p m.seq (stampNs (s.egress p tb)) m.srcId m.srcPort (m.correction + stampFrac (s.egress p tb))
        :: .ptpPdelayResp p m.seq (stampNs (s.ingress p ta)) m.srcId m.srcPort (-(stampFrac (s.ingress p ta))) :: s.sends)
    ∧ (s.portState p = 6 → s.dueSince x.sync3 (s.syncSec3 p) = true → Completes (.syncTransmit p ta) s fun t =>
      let log := s.rdS F.PTP_CTRL_LOG_SYNC [p]
      t.sends = .ptpFollowUp p x.seqSync (stampNs (s.egress p ta)) (stampFrac (s.egress p ta)) log :: .ptpSync p x.seqSync log
          :: s.sends
        ∧ (t.ptpPort p).seqSync = (x.seqSync + 1) % 65536 ∧ (t.ptpPort p).sync3 = some s.time.up3)
    ∧ (s.portState p = 6 → s.dueSince x.ann3 (s.annSec3 p) = true → Completes (.announceTransmit p) s fun t =>
      t.sends = .ptpAnnounce p x.seqAnn (s.announceData p) (s.rd F.PTP_CTRL_LOG_ANN [p] : Int) :: s.sends
        ∧ (t.ptpPort p).seqAnn = (x.seqAnn + 1) % 65536 ∧ (t.ptpPort p).ann3 = some s.time.up3)
    ∧ (s.peerDelay p = true → x.pdHold = none → s.dueSince x.req3 (s.dreqSec3 p) = true → Completes (.delayReqTransmit p ta) s fun t =>
      t.sends = .ptpPdelayReq p x.seqReq (-(s.rdS F.PTP_ASYM_ASYM [p])) :: s.sends ∧ (t.ptpPort p).seqReq = (x.seqReq + 1) % 65536
        ∧ (t.ptpPort p).exchanges.head? = some { seq := x.seqReq, at3 := s.upNow3, t1 := s.egress p ta, peer := true })
    ∧ (s.peerDelay p = false → s.portState p = 8 ∨ s.portState p = 9 → Completes (.delayReqTransmit p ta) s fun t =>
      t.sends = .ptpDelayReq p x.seqReq (-(s.rdS F.PTP_ASYM_ASYM [p])) :: s.sends ∧ (t.ptpPort p).seqReq = (x.seqReq + 1) % 65536
        ∧ (t.ptpPort p).exchanges.head? = some { seq := x.seqReq, at3 := s.upNow3, t1 := s.egress p ta, peer := false })

/-! ## Network ports -/

/-- R68: a link that rises on an enabled port shows LINK and raises LINK_UP, with three announcements due (R83), and three of the
shared address on the unit that answers for it (log entry 180). A link that falls clears LINK, raises LINK_DOWN, and every host
frame in flight and every frame that waits ends. R83: an entry of the ARP cache that has stood for 300 s is gone after ARP_AGE_OUT,
and every other entry stays. R80: the end of a pause whose time has come takes its priority off the held ones, and FC_HELD shows
whether one is left. R444: the frame that the test unit holds is delivered once 1 ms has passed: it is
classified as if it came now, and nothing is held any more. -/
def Obligations.NetLinkAndTimers : Prop :=
  (∀ (s : State) (p : Nat), p < 2 →
    (s.on F.NP_CFG_EN [p] = true → s.linkUp p = false → Completes (.linkUp p) s fun t =>
      t.linkUp p = true ∧ t.on F.NP_STAT_BLOCK_LOCK [p] = true ∧ t.on F.NP_EVT_LINK_UP [p] = true
        ∧ (t.netPort p).gratuitous = 3 ∧ (t.netPort p).vip = if s.answersVip = true then 3 else 0)
    ∧ (s.linkUp p = true → Completes (.linkDown p) s fun t =>
      t.linkUp p = false ∧ t.on F.NP_STAT_BLOCK_LOCK [p] = false ∧ t.on F.NP_EVT_LINK_DOWN [p] = true
        ∧ (∀ q, q < 4 → Tab.get [] (t.netPort p).fly q = []) ∧ (t.netPort p).txq = []))
  ∧
  (∀ (s : State) (p : Nat), p < 2 →
    (∀ ip, Completes (.arpAgeOut p ip) s fun t =>
      (∀ e ∈ (t.netPort p).arp, e.ip = ip → s.elapsed e.learned3 900000000000 = false)
        ∧ (∀ e ∈ (s.netPort p).arp, e.ip ≠ ip → e ∈ (t.netPort p).arp) ∧ s.sameWords t [] ∧ t.sends = s.sends)
    ∧ (∀ prio end3, (s.netPort p).paused.lookup prio = some end3 → s.elapsed end3 0 = true →
      Completes (.pauseExpiry p prio) s fun t =>
        (t.netPort p).paused = Tab.put (s.netPort p).paused prio none
          ∧ t.on F.NP_STAT_FC_HELD [p] = !(t.netPort p).paused.isEmpty))
  ∧
  (∀ (s : State) (p since3 : Nat) (f : Frame), p < 2 → s.tst.held.lookup p = some (f, since3) → s.elapsed since3 3000000 = true →
    exec (.heldFrameRelease p) s
      = .next (({ s with tst := { s.tst with held := Tab.put s.tst.held p none } } : State).classify p f).ended)

/-- R70, R76, R398: frames at a port whose link is up. One that the length and FCS check drops counts in the counter that
the check names. An accepted PTP message of the port's profile joins the receive queue of the PTP engine. -/
def Obligations.NetFrameReceive : Prop :=
  ∀ (s : State) (p : Nat) (f : Frame), p < 2 → s.linkUp p = true →
    let limit := s.lengthLimit p (vlanCount f.tags)
    (∀ i, frameDrop f limit = some i → Completes (.frameReceive p f) s fun t =>
      Tab.get 0 (t.netPort p).cnt i = (Tab.get 0 (s.netPort p).cnt i + 1) % 2 ^ 40 ∧ t.sends = s.sends)
    ∧ (∀ m, frameDrop f limit = none → s.rd F.SYS_STAT_PWR ≠ 2 → s.frmMode p = 0 → s.vlanAccepts p f = true →
      s.addressed p f = true → s.ptpFrame p f = some m → s.ptpRuns p = true → (s.ptpPort p).rxq.length < 32 →
      Completes (.frameReceive p f) s fun t =>
        (t.ptpPort p).rxq = (s.ptpPort p).rxq ++ [m]
          ∧ Tab.get 0 (t.netPort p).cnt 1 = (Tab.get 0 (s.netPort p).cnt 1 + 1) % 2 ^ 40)

/-- R76, R77, R398: an accepted frame that no engine and no responder takes goes to the first host queue that it matches.
Where the descriptor at HEAD is owned by the device and its buffer holds the frame, HEAD moves on by one entry and the
queue's bit of RX_DONE sets. R72, R398: a host frame on its way out. The device takes the owned descriptor of an enabled
queue and builds the frame, which is then in flight; when it is the queue's turn (R78) and no frame of a higher level waits, the frame
reaches the medium: it has gone out, HEAD has moved on by one entry, and the queue's bit of TX_DONE is set. -/
def Obligations.NetHostFrames : Prop :=
  (∀ (s : State) (p q : Nat) (f : Frame) (d : List Byte) (e : Nat),
    p < 2 → s.linkUp p = true → frameDrop f (s.lengthLimit p (vlanCount f.tags)) = none → s.awake = true →
    s.fab.drains.contains (queueMaster p) = false → s.frmMode p = 0 → s.vlanAccepts p f = true → s.addressed p f = true →
    f.payload = .other e → s.hostQueue p f = some q → f.bytes.length ≤ 9600 →
    s.rd F.NP_HRr_CFG_SIZE_LOG2 [p, q + 4] ≤ 12 →
    let k := s.ringHead p (q + 4)
    k ≠ s.ringTail p (q + 4) → s.memRead (s.ringEntry p (q + 4) k) 16 = .ok d → descWord d 3 / 2 ^ 31 ≠ 0 →
    f.bytes.length ≤ descWord d 1 / 65536 →
    (∀ n, n ≤ 9600 → ∃ bs, s.memRead (descWord d 1 % 16 * 2 ^ 32 + descWord d 0) n = .ok bs) →
    Completes (.frameReceive p f) s fun t =>
      t.ringHead p (q + 4) = (k + 1) % s.ringSize p (q + 4)
        ∧ t.rd F.NP_HQEVT_RX_DONE [p] = s.rd F.NP_HQEVT_RX_DONE [p] ||| 2 ^ q)
  ∧
  (∀ (s : State) (p q : Nat), p < 2 → q < 4 →
    let flying := Tab.get [] (s.netPort p).fly q
    let k := (s.ringHead p q + flying.length) % s.ringSize p q
    (∀ d bs frame pad, s.awake = true → s.fab.drains.contains (queueMaster p) = false → s.on F.NP_HQ_VLANq_TX_EN [p, q] = true →
      k ≠ s.ringTail p q → s.memRead (s.ringEntry p q k) 16 = .ok d → descWord d 3 / 2 ^ 31 ≠ 0 →
      1 ≤ descWord d 2 % 65536 → descWord d 2 % 65536 ≤ 9596 →
      s.memRead (descWord d 1 % 16 * 2 ^ 32 + descWord d 0) (descWord d 2 % 65536) = .ok bs → s.linkUp p = true →
      s.buildFrame p q bs = .ok (frame, pad) →
      Completes (.hostTransmit p q) s fun t =>
        ∃ x, Tab.get [] (t.netPort p).fly q = flying ++ [x] ∧ x.bytes = frame ∧ x.desc = s.ringEntry p q k)
    ∧ (∀ x rest launch start, flying = x :: rest → s.rd F.NP_HRr_CFG_SIZE_LOG2 [p, q] ≤ 12 → (s.netPort p).txq = [] →
      s.hostTurn p = some q → s.hostSlot p = some start → Completes (.txDone p q launch) s fun t =>
      Tab.get [] (t.netPort p).fly q = rest ∧ Output.frame p x.bytes ∈ t.sends ∧ (t.netPort p).turn = q
        ∧ (t.netPort p).free = start + s.frameTime p (x.bytes.length + 4)
        ∧ t.ringHead p q = (s.ringHead p q + 1) % s.ringSize p q
        ∧ t.rd F.NP_HQEVT_TX_DONE [p] = s.rd F.NP_HQEVT_TX_DONE [p] ||| 2 ^ q))

/-- R83, R353: the ARP responder. A request for the port's address, or on the claiming unit for the shared one, is answered and its
sender learned; a reply is learned, and its address is no longer asked for; an announcement of either address goes out while one is
due; an unresolved address is asked for again 1 s after the last request, and after three unanswered requests ARP_UNRESOLVED is
raised. R83: the ICMP and IGMP responders. An echo request within the rate is answered with its data; a query makes a report due,
which then names every joined group; a join or a leave draws its own reports. A frame of theirs leaves an idle transmitter at once,
and waits while the medium is occupied (R78). -/
def Obligations.NetResponders : Prop :=
  (∀ (s : State) (p : Nat), s.responder p F.NP_RESP_ARP_EN = true →
    let knows (t : State) (ip mac : Nat) : Prop := ∃ e ∈ (t.netPort p).arp, e.ip = ip ∧ e.mac = mac
    let x := s.netPort p
    (∀ k : ArpPkt, k.targetIp = s.rd F.NP_IPV4_V [p] ∨ s.answersVip = true ∧ k.targetIp = s.rd F.RED_VIP_ADDR →
      let answer : Output := .arpReply p k.targetIp k.senderMac k.senderIp
      (s.txIdle p = true → Completes (.arpRequest p k) s fun t => knows t k.senderIp k.senderMac ∧ t.sends = answer :: s.sends)
      ∧ (50 * s.upNow3 < x.free → Completes (.arpRequest p k) s fun t => knows t k.senderIp k.senderMac ∧ t.sends = s.sends
        ∧ ∃ f, (t.netPort p).txq = x.txq ++ [f] ∧ f.out = answer ∧ f.level = 3))
    ∧ (∀ k : ArpPkt, Completes (.arpReply p k) s fun t =>
      knows t k.senderIp k.senderMac ∧ (t.netPort p).arpPend.lookup k.senderIp = none ∧ t.sends = s.sends)
    ∧ (s.txIdle p = true →
      (0 < x.gratuitous → s.dueSince x.grat3 3000000000 = true → x.vip = 0 → Completes (.gratuitousAnnouncement p) s fun t =>
        (t.netPort p).gratuitous = x.gratuitous - 1 ∧ (t.netPort p).grat3 = some s.upNow3
          ∧ t.sends = .arpAnnouncement p (s.rd F.NP_IPV4_V [p]) :: s.sends)
      ∧ (0 < x.vip → s.dueSince x.vip3 3000000000 = true → s.answersVip = true → x.gratuitous = 0 →
        Completes (.gratuitousAnnouncement p) s fun t =>
          (t.netPort p).vip = x.vip - 1 ∧ (t.netPort p).vip3 = some s.upNow3
            ∧ t.sends = .arpAnnouncement p (s.rd F.RED_VIP_ADDR) :: s.sends)
      ∧ (∀ ip n at3, x.arpPend.lookup ip = some (n, at3) → s.elapsed at3 3000000000 = true → Completes (.arpRetry p ip) s fun t =>
        t.sends = .arpRequest p ip :: s.sends ∧ (t.netPort p).arpPend.lookup ip = some (n + 1, s.upNow3)
          ∧ (n = 3 → t.on F.NP_EVT_ARP_UNRESOLVED [p] = true))))
  ∧
  (∀ (s : State) (p : Nat),
    (∀ srcIp ident seq data, s.responder p F.NP_RESP_ICMP_EN = true → s.txIdle p = true →
      ((s.netPort p).echoes3.filter fun t => decide (s.time.up3 < t + 3000000000)).length < s.rd F.NP_RESP_ICMP_RATE [p] →
      Completes (.icmpEcho p srcIp ident seq data) s fun t => t.sends = .icmpEchoReply p srcIp ident seq data :: s.sends)
    ∧ (s.responder p F.NP_RESP_IGMP_EN = true →
      (∀ ms, Completes (.igmpQuery p ms) s fun t => (t.netPort p).queryPending = true ∧ t.sends = s.sends)
      ∧ ((s.netPort p).queryPending = true → s.txIdle p = true → Completes (.igmpReport p) s fun t =>
        (t.netPort p).queryPending = false
          ∧ t.sends = .igmpReport p ((s.groups p).map fun g => (g, s.groupSource p g)) :: s.sends)
      ∧ (∀ g n last3, (s.netPort p).reports.lookup g = some (n, last3) → s.dueSince last3 3000000000 = true → s.txIdle p = true →
        Completes (.unsolicitedReport p g) s fun t =>
          t.sends = .igmpReport p [(g, s.groupSource p g)] :: s.sends
            ∧ (t.netPort p).reports.lookup g = if n ≤ 1 then none else some (n - 1, some s.upNow3))))

/-! ## Streams -/

/-- R94, R96, R99: a stream packet for a context with one AAF identity. A packet whose form is right, the first of its
sequence, with every frame in the window of the jitter buffer, counts, is remembered, and puts the context in RUN. A packet
whose form is wrong counts its error, raises its event, and stores nothing. R56: the first packet after an acquisition has stepped
local time is a discontinuity. -/
def Obligations.StreamPacket : Prop :=
  ∀ (s : State) (port n arrival : Nat) (p : StreamPkt) (i : RxId),
    port < 2 → n < 256 → s.audio = true → s.linkUp port = true → s.rxMatch port p = some n → s.rxIds n = [i] →
    i.cfg.matches port p = true → i.cfg.rtp = false → i.shadow = false →
    let c := i.cfg
    let seq := p.seq % 256
    (c.check p = 0 → i.jumped = true → i.last32.contains seq = false → Completes (.streamPacket port p arrival) s fun t =>
      t.rd F.RXn_CNT_DISC_V [n] = (s.rd F.RXn_CNT_DISC_V [n] + 1) % 2 ^ 32 ∧ t.on F.STR_EVT_DISC = true
        ∧ ∃ j, t.rxIds n = [j] ∧ j.jumped = false)
    ∧ (c.check p = 0 → i.expected = none → i.jumped = false → i.last32.contains seq = false →
      let count := p.payloadLen / (c.ch * fmtBytes c.fmt)
      1 ≤ count →
      (∀ k, k < count →
        let u := 3 * c.firstTime p arrival - s.origin3 + roundDiv (3000000000 * (k : Int)) ((nsrHz c.rate).getD 48000)
          - readAhead3 ((nsrHz c.rate).getD 48000) s.rateHz
        u ≤ 3 * (arrival : Int) - s.origin3 + 6000000000 ∧ (s.time.block : Int) ≤ u / s.block3
          ∧ u / s.block3 ≤ s.time.block + c.depth) →
      Completes (.streamPacket port p arrival) s fun t =>
        t.rd F.RXn_CNT_PKTS_V [n] = (s.rd F.RXn_CNT_PKTS_V [n] + 1) % 2 ^ 32
          ∧ ∃ j, t.rxIds n = [j] ∧ j.st = 2 ∧ j.expected = some ((seq + 1) % 256) ∧ j.last32 = (seq :: i.last32).take 32
            ∧ j.lastStored = s.time.block)
    ∧ (c.check p = 6 → Completes (.streamPacket port p arrival) s fun t =>
      t.rd F.RXn_CNT_FORMAT_V [n] = (s.rd F.RXn_CNT_FORMAT_V [n] + 1) % 2 ^ 32 ∧ t.on F.STR_EVT_FORMAT = true
        ∧ t.rd F.STR_ERRLOG_CODE = 6 ∧ t.rxIds n = [i])
    ∧ (c.check p = 7 → Completes (.streamPacket port p arrival) s fun t =>
      t.rd F.RXn_CNT_CHANNELS_V [n] = (s.rd F.RXn_CNT_CHANNELS_V [n] + 1) % 2 ^ 32 ∧ t.on F.STR_EVT_CHANNELS = true
        ∧ t.rd F.STR_ERRLOG_CODE = 7 ∧ t.rxIds n = [i])

/-- R96, R107: a context in RUN that has stored nothing for STALE blocks is STARVED, with its counter, sticky bit and event.
Identities whose fade has ended are released, and their groups are left (R83). R78, R102, R103, R342: a transmit context whose next
packet is due sends it on its port, where the claim gate is open, the link is up, the transmitter is idle, its class has credit and
flow control does not hold it; the identity goes on to the next packet. Where the link is down the packet is counted as TX_DOWN. A
packet that waited past its time is discarded with TX_LATE. -/
def Obligations.StreamTimers : Prop :=
  (∀ (s : State) (n : Nat),
    (∀ i, s.rxIds n = [i] → i.shadow = false → i.st = 2 → i.lastStored + s.rd F.STR_CTRL_STALE ≤ s.time.block → n < 256 →
      Completes (.starved n) s fun t =>
        t.rxIds n = [{ i with st := 3 }] ∧ t.on F.STR_EVT_STARVED = true ∧ t.rd F.STR_ERRLOG_CODE = 10
          ∧ t.rd F.RXn_CNT_STARVE_V [n] = (s.rd F.RXn_CNT_STARVE_V [n] + 1) % 2 ^ 32)
    ∧ Completes (.identityFadeEnd false n) s (fun t =>
      t.rxIds n = (s.rxIds n).filter (fun i => !i.dying || i.shadow || i.fade.rest != 0) ∧ t.str.tx = s.str.tx
        ∧ (∀ p, p < 2 → (t.netPort p).joined = t.groups p) ∧ s.sameWords t [])
    ∧ Completes (.identityFadeEnd true n) s (fun t =>
      t.txIds n = (s.txIds n).filter (fun i => !i.dying || i.fade.rest != 0) ∧ t.str.rx = s.str.rx ∧ s.sameWords t []))
  ∧
  (∀ (s : State) (n port : Nat),
    (∀ i, port < 2 → n < 256 → s.audio = true → s.txIds n = [i] → i.cfg.portList = [port] → s.gate = true → i.cfg.rtp = false →
      s.txTime3 i.cfg (i.next * i.cfg.frames) < ((s.time.local3 + s.block3 : Nat) : Int) →
      let k := s.txBuild n i i.next port
      let x := s.netPort port
      let level := (s.txLevel port i.cfg).1
      let now := 50 * s.upNow3
      (s.linkUp port = true → x.txq = [] → x.free ≤ now → s.prioHeld port (s.txLevel port i.cfg).2 = false →
        level = 3 ∨ 0 ≤ (x.credit level).1 ∧ (x.credit level).2 ≤ now → k.late (s.localAt3 now) = false →
        Completes (.packetRelease n) s fun t =>
          t.sends = .streamPacket port k.dmac k (k.wire k.dmac (s.macAddr port)) :: s.sends
            ∧ t.txIds n = [{ i with next := i.next + 1 }]
            ∧ t.rd F.TXn_CNT_PKTS_V [n] = (s.rd F.TXn_CNT_PKTS_V [n] + 1) % 2 ^ 32)
      ∧ (s.linkUp port = false → Completes (.packetRelease n) s fun t =>
        t.sends = s.sends ∧ t.txIds n = [{ i with next := i.next + 1 }] ∧ t.on F.STR_EVT_TX_DOWN = true
          ∧ t.rd F.TXn_CNT_TX_DOWN_V [n] = (s.rd F.TXn_CNT_TX_DOWN_V [n] + 1) % 2 ^ 32))
    ∧ (∀ f k rest, port < 2 → n < 256 → (s.netPort port).txq = f :: rest → s.lateOf n f = some k →
      Completes (.txLate n port) s fun t =>
        (t.netPort port).txq = rest ∧ t.on F.STR_EVT_TX_LATE = true ∧ t.on F.TXn_STAT_STICKY_LATE [n] = true
          ∧ t.rd F.STR_ERRLOG_CODE = 11 ∧ t.rd F.STR_ERRSEQ_SEQ = k.seq % 65536 ∧ t.sends = s.sends))

/-! ## The Object Scene Protocol -/

/-- R114, R116, R117: opening a session, where the transmitter is idle. A HELLO of stage 0 draws a challenge, which is held beside the
15 latest of the last second, and sent; an answered challenge with a key of its role opens the lowest free session, sends its
WELCOME and is consumed; a HELLO whose MAC no key gives is refused, and opens nothing; a challenge of 1 s is dropped; an address is
no longer ignored after its time. -/
def Obligations.OspOpening : Prop :=
  ∀ (s : State) (src : UdpFrom) (b : HelloBody),
    (s.ospReaches src = true → s.helloIgnored src = false → s.txIdle src.port = true → b.stage = 0 →
      Completes (.helloStage0 src b) s fun t =>
        ∃ c, t.osp.challenges = c :: s.challengesHeld.take 15 ∧ c.src = src ∧ c.drawn3 = s.upNow3 ∧ t.osp.ses = s.osp.ses
          ∧ t.sends = .osp src (ospBytes 0x02 0 0 (welcomeBody 0 0 0 0 c.dnonce (List.replicate 32 0) 0 0)) :: s.sends)
    ∧ (∀ n k, s.ospReaches src = true → s.helloIgnored src = false → s.txIdle src.port = true → b.stage = 1 →
      b.role = 1 ∨ b.role = 2 →
      (∀ e ∈ s.osp.ses, e.2.src.same src = false ∨ e.2.cnonce ≠ b.cnonce) →
      (∃ c ∈ s.challengesHeld, c.src.same src = true ∧ c.dnonce = b.dnonce) →
      (s.roleKeys b.role).find? (fun k => s.helloMac src b k == b.mac) = some k →
      (List.range 8).find? (fun n => (s.session n).isNone) = some n →
      Completes (.helloStage1 src b) s fun t =>
        ∃ x, t.session n = some x ∧ x.src = src ∧ x.role = b.role ∧ x.e = b.seq0 % 2 ^ 32 ∧ x.closing = none
          ∧ t.on F.OSP_EVT_OPEN = true ∧ t.sends = .osp src x.welcome :: s.sends
          ∧ ∀ c ∈ t.osp.challenges, c.src.same src = true → c.dnonce ≠ b.dnonce)
    ∧ (s.ospReaches src = true → s.helloIgnored src = false → b.stage = 1 → b.role = 1 ∨ b.role = 2 →
      (∀ e ∈ s.osp.ses, e.2.src.same src = false ∨ e.2.cnonce ≠ b.cnonce) →
      (s.roleKeys b.role).find? (fun k => s.helloMac src b k == b.mac) = none → Completes (.helloStage1 src b) s fun t =>
        (∀ c ∈ t.osp.challenges, c.src.same src = false) ∧ t.osp.ses = s.osp.ses ∧ t.on F.OSP_EVT_AUTH_FAIL = true
          ∧ t.rd F.OSP_CNT_AUTH_FAIL_V = (s.rd F.OSP_CNT_AUTH_FAIL_V + 1) % 2 ^ 32 ∧ t.rd F.OSP_ERRLOG_CODE = 1)
    ∧ Completes (.challengeExpiry src) s (fun t =>
      (∀ c ∈ t.osp.challenges, c.src.same src = true → s.elapsed c.drawn3 3000000000 = false)
        ∧ (∀ c ∈ s.osp.challenges, c.src.same src = false → c ∈ t.osp.challenges) ∧ s.sameWords t [])
    ∧ (∀ addr since3, s.osp.ignored.lookup addr = some since3 → s.elapsed since3 30000000000 = true →
      Completes (.helloIgnoreEnd addr) s fun t => t.osp.ignored.lookup addr = none ∧ s.sameWords t [])

/-- R118, R119, R132: a message of an open session. A sequenced message whose number lies in the window and is new waits in
the reorder buffer under that number; a KEEPALIVE restarts the controller's interval and leaves the buffer alone. -/
def Obligations.OspMessages : Prop :=
  ∀ (s : State) (src : UdpFrom) (m : OspMsg) (n : Nat) (x : OspSession),
    n < 8 → s.ospReaches src = true → m.magic = 0x4F53 → m.bad = 0 →
    s.osp.ses.find? (fun e => e.2.handle == m.handle) = some (n, x) → x.src.same src = true → x.closing = none →
    (m.sequenced = true → 0 ≤ seqDiff (m.seq % 2 ^ 32) x.e → seqDiff (m.seq % 2 ^ 32) x.e < 256 →
      x.buf.lookup (m.seq % 2 ^ 32) = none → Completes (.ospMessage src m) s fun t =>
        (∃ y, t.session n = some y ∧ y.buf.lookup (m.seq % 2 ^ 32) = some (some m) ∧ y.rx3 = s.upNow3)
          ∧ t.rd F.OSP_SESn_CNT_MSGS_V [n] = (s.rd F.OSP_SESn_CNT_MSGS_V [n] + 1) % 2 ^ 32)
    ∧ (m.type = 0x30 → Completes (.keepalive src m) s fun t =>
      ∃ y, t.session n = some y ∧ y.buf = x.buf ∧ y.e = x.e ∧ y.rx3 = s.upNow3
        ∧ (0 < seqDiff m.seq x.e → y.kaSeq = some (m.seq % 2 ^ 32)))

/-- R123, R127, R128, R130: the messages at the front of the session whose turn it is. SCENE_BEGIN opens a batch; SCENE_COMMIT puts its
records into the scene store for their due block; SCENE_ABORT drops them, and answers a doomed batch with BATCH_FAIL; an OBJ_UPDATE
outside a batch puts its record there. The expected number passes each of them, and the turn goes on. -/
def Obligations.OspBatches : Prop :=
  ∀ (s : State) (n : Nat) (x : OspSession) (m : OspMsg), n < 8 →
    let passed (t : State) : Prop := t.session n = some (x.pass s.upNow3) ∧ t.osp.turn = (n + 1) % 8
    (s.front n 0x10 = some (x, m) → m.batch ≠ 0 → s.scene.batches.lookup n = none → Completes (.sceneBegin n) s fun t =>
      (∃ b, t.scene.batches.lookup n = some b ∧ b.ident = m.batch ∧ b.seq = m.seq ∧ b.recs = [] ∧ b.doom = 0) ∧ passed t)
    ∧ (∀ b τ due late, s.front n 0x12 = some (x, m) → m.body = .commit τ → s.scene.batches.lookup n = some b →
      s.inBatch n m.batch = true → b.doom = 0 → s.timing τ = (0, due, late) → Completes (.sceneCommit n) s fun t =>
        t.scene.batches.lookup n = none ∧ passed t
          ∧ t.scene.store = s.scene.store
            ++ [{ src := n, order := s.scene.order, due := due, recs := b.recs, batch := some m.seq }]
          ∧ (late = true → t.on F.OSP_EVT_LATE = true))
    ∧ (∀ b, s.front n 0x13 = some (x, m) → s.scene.batches.lookup n = some b → s.inBatch n m.batch = true →
      (b.doom = 0 → Completes (.sceneAbort n) s fun t =>
        t.scene.batches.lookup n = none ∧ t.scene.store = s.scene.store ∧ passed t)
      ∧ (b.doom ≠ 0 → Tab.get 0 x.used m.seq < 8 → Completes (.sceneAbort n) s fun t =>
        t.scene.batches.lookup n = none ∧ t.scene.store = s.scene.store ∧ t.rd F.OSP_ERRLOG_CODE = 17
          ∧ t.rd F.OSP_ERRSEQ_V = m.seq % 2 ^ 32))
    ∧ (∀ r due late, s.front n 0x11 = some (x, m) → m.body = .update 1 [r] → m.batch = 0 → s.scene.batches.lookup n = none →
      3000000000 ≤ (s.fillBucket x).tokens → r.obj < s.objCount → s.owner r.obj = n → r.badRange = false →
      s.timing r.apply = (0, due, late) → s.storeFull n = false → Completes (.objUpdate n) s fun t =>
        t.scene.store = s.scene.store
            ++ [{ src := n, order := s.scene.order, due := due, recs := [{ body := r, seq := m.seq, index := 0 }], batch := none }]
          ∧ t.session n = some ({ s.fillBucket x with tokens := (s.fillBucket x).tokens - 3000000000 }.pass s.upNow3)
          ∧ t.osp.turn = (n + 1) % 8 ∧ t.osp.done = s.osp.done + 1)

/-- R121, R122, R129: what time does to an open session. A gap that has lasted is answered with NAK; one that lasts GIVEUP
is given up, counted and raised as LOST; a batch that lasts too long ends with code 18, a doomed one with 17 (R128; log entry 174).
R132, R133: keeping a session and closing it. A device that has sent nothing for the interval sends KEEPALIVE; a session whose
controller has fallen silent, and one whose BYE is processed, answers with BYE and closes. What is sent leaves an idle transmitter
of the port at which the session's latest message arrived (log entry 172). -/
def Obligations.OspTimers : Prop :=
  (∀ (s : State) (n : Nat), n < 8 →
    (∀ x, s.session n = some x → x.gap.isSome = true → x.closing = none → s.elapsed x.nak3 6000000 = true →
      s.txIdle x.src.port = true → Completes (.nak n) s fun t =>
        let l := x.missing.take 32
        t.sends = .osp x.src (ospBytes 0x21 x.handle x.devSeq
            (beBytes 2 l.length ++ beBytes 2 0 ++ (l.map fun r => beBytes 4 r.1 ++ beBytes 4 r.2).flatten)) :: s.sends
          ∧ t.rd F.OSP_SESn_CNT_NAK_V [n] = (s.rd F.OSP_SESn_CNT_NAK_V [n] + 1) % 2 ^ 32
          ∧ ∃ y, t.session n = some y ∧ y.nak3 = x.nak3 + 6000000 ∧ y.devSeq = (x.devSeq + 1) % 2 ^ 32)
    ∧ (∀ x e since3 first span rest, s.session n = some x → x.gap = some (e, since3) → x.missing = (first, span) :: rest →
      x.closing = none → s.elapsed since3 (s.rd F.OSP_TIMERS_GIVEUP * 3000000) = true → Completes (.lost n) s fun t =>
        t.on F.OSP_EVT_LOST = true
          ∧ t.rd F.OSP_SESn_CNT_LOST_V [n] = (s.rd F.OSP_SESn_CNT_LOST_V [n] + span) % 2 ^ 32
          ∧ t.scene.batches.lookup n = none
          ∧ ∃ y, t.session n = some y
            ∧ y.e = ({ x with e := (x.e + span) % 2 ^ 32, ackDue := true }.skip x.buf.length).e)
    ∧ (∀ x b, s.session n = some x → x.closing = none → s.scene.batches.lookup n = some b →
      s.elapsed b.opened3 (s.rd F.OSP_TIMERS_BATCHMAX * 3000000) = true → Tab.get 0 x.used b.seq < 8 →
      Completes (.batchTimeout n) s fun t =>
        t.scene.batches.lookup n = none ∧ t.scene.store = s.scene.store
          ∧ t.rd F.OSP_ERRLOG_CODE = (if b.doom = 0 then 18 else 17)
          ∧ t.rd F.OSP_ERRSEQ_V = b.seq % 2 ^ 32))
  ∧
  (∀ (s : State) (n : Nat) (x : OspSession), n < 8 → s.session n = some x → x.closing = none → s.txIdle x.src.port = true →
    let sent (t : State) (x : OspSession) (type : Nat) (body : List Byte) : Prop :=
      t.sends = .osp x.src (ospBytes type x.handle x.devSeq body) :: s.sends
    (s.elapsed x.tx3 (x.kaMs * 3000000) = true → Completes (.keepaliveSend n) s fun t =>
      sent t x 0x30 [] ∧ t.session n = some { x with devSeq := (x.devSeq + 1) % 2 ^ 32, tx3 := s.upNow3 })
    ∧ (s.elapsed x.rx3 (3 * x.kaMs * 3000000) = true → Completes (.sessionTimeout n) s fun t =>
      sent t x 0x31 (beBytes 2 20 ++ beBytes 2 0) ∧ t.on F.OSP_EVT_TIMEOUT = true
        ∧ ∃ y, t.session n = some y ∧ y.closing = some 20)
    ∧ (∀ m, s.front n 0x31 = some (x, m) → Completes (.bye n) s fun t =>
      sent t x 0x31 (beBytes 2 0 ++ beBytes 2 0) ∧ ∃ y, t.session n = some y ∧ y.closing = some 0 ∧ y.e = (x.pass s.upNow3).e))

/-- R126, R133: what hosts write to the session engine. CLOSE closes a session with reason 21; clearing EN closes every open
session with reason 22; a new owner of an object waits for the next boundary while the register shows the old one. -/
def Obligations.OspHostWrites : Prop :=
  ∀ (s : State) (a : Access) (n : Nat),
    (n < 8 → s.admits a R.OSP_SESn_CTRL [n] = true → exec (.hostClose a n) s =
      .next (s.does a R.OSP_SESn_CTRL [n] (s.actionWord a R.OSP_SESn_CTRL [n] 1) fun u => u.closeSession n 21))
    ∧ (s.admits a R.OSP_CTRL [] = true → s.txnOwn a = false → s.unblocked R.OSP_CTRL [] = true → s.on F.OSP_CTRL_EN = true →
      Completes (.engineOff a) s fun t =>
        t.on F.OSP_CTRL_EN = false ∧ t.rd F.OSP_CTRL_UDP = s.rd F.OSP_CTRL_UDP ∧ t.osp.challenges = []
          ∧ ∀ k x, k < 8 → s.session k = some x → x.closing = none → ∃ y, t.session k = some y ∧ y.closing = some 22)
    ∧ (∀ v, n < 1024 → v < 2 ^ 32 → s.admits a R.OSP_OBJn [n] = true → s.txnOwn a = false → s.unblocked R.OSP_OBJn [n] = true →
      v / 2 ^ 28 ≠ s.rd F.OSP_OBJn_OWNER [n] → Completes (.ownerWrite a n v) s fun t =>
        t.rd F.OSP_OBJn_OWNER [n] = s.rd F.OSP_OBJn_OWNER [n] ∧ t.scene.owners.lookup n = some (v / 2 ^ 28)
          ∧ t.rd F.OSP_OBJn_POLICY [n] = v / 2 ^ 26 % 4 ∧ t.rd F.OSP_OBJn_ORPHAN_MS [n] = v % 65536)

/-! ## Serial ports, queues and metadata -/

/-- R141, R142, R143, R149, R154: the frames of a serial port. The clocks of an enabled port start it; a complete frame at a
running receive port counts and its left half, on a C32 port that stores the left slot only, enters the queue's assembly
word; of one whose right half does not end nothing is stored; a running transmit port sends the frame at hand, and silence before its
queued frames may go out. R145: the end of a rate window shows the measured rate and its class, and raises CLASS_CHG where the class
changed; a word select that stops shows class 0, and the port stops. -/
def Obligations.SerialPorts : Prop :=
  (∀ (s : State) (p : Nat), p < 32 →
    (∀ wsEdge, s.sapOn p = true → s.on F.SAPp_STAT_RUN [p] = false → Completes (.sapStart p wsEdge) s fun t =>
      t.on F.SAPp_STAT_RUN [p] = true ∧ (t.serial p).next = s.sapPlace wsEdge ∧ (t.serial p).frames = 0
        ∧ (s.sapSends p = false →
          (t.serial p).rx = some (s.sapGrid p (s.sapPlace wsEdge) ((s.serial p).rx.getD (s.sapReader p)))))
    ∧ (∀ wsEdge ws sd wsFall sdFall l, s.sapRuns p = true → s.sapSends p = false →
      let halves := frameHalves (s.on F.SAPp_CFG_FMT [p]) (s.on F.SAPp_CFG_BCLK_INV [p]) (sapClocks ws sd wsFall sdFall)
      let q := s.sapQueue p
      halves.1 = some l →
      (∀ r, halves.2 = some r → Completes (.sapReceiveFrame p wsEdge ws sd wsFall sdFall) s fun t =>
        t.rd F.SAPp_CNT_FRAMES_V [p] = (s.rd F.SAPp_CNT_FRAMES_V [p] + 1) % 2 ^ 32
          ∧ t.rd F.SAPp_STAT_HALF_BITS [p] = min r.length 255
          ∧ (t.serial p).next = (s.serial p).next + (s.serial p).period
          ∧ (s.sapDeaf p = true → t.brm = s.brm)
          ∧ (s.sapDeaf p = false → s.sapSlots p = [0] → s.sapP24 p = false → (s.queue q).asmBits + 32 < 256 →
            (t.queue q).asmBits = (s.queue q).asmBits + 32
              ∧ (t.queue q).asm = (s.queue q).asm
                + halfWord (s.rd F.SAPp_CFG_WLEN [p]) l.length (bitsValue l) * 2 ^ (s.queue q).asmBits
              ∧ (t.serial p).stamps = (s.serial p).stamps ++ [(s.serial p).next]))
      ∧ (halves.2 = none → Completes (.sapReceiveFrame p wsEdge ws sd wsFall sdFall) s fun t =>
        t.rd F.SAPp_CNT_FRAMES_V [p] = s.rd F.SAPp_CNT_FRAMES_V [p] ∧ t.rd F.SAPp_STAT_HALF_BITS [p] = min l.length 255
          ∧ t.brm = s.brm ∧ t.sap = s.sap))
    ∧ (∀ wsEdge lb rb, s.sapRuns p = true → s.sapSends p = true → Completes (.sapTransmitFrame p ⟨wsEdge, lb, rb⟩) s fun t =>
      let x := s.serial p
      let frame (l r : Int) : Output := .sapFrame p s.gate (s.on F.SAPp_CFG_FMT [p]) (s.on F.SAPp_CFG_BCLK_INV [p])
        (wireBits (s.rd F.SAPp_CFG_WLEN [p]) lb l) (wireBits (s.rd F.SAPp_CFG_WLEN [p]) rb r)
      t.rd F.SAPp_CNT_FRAMES_V [p] = (s.rd F.SAPp_CNT_FRAMES_V [p] + 1) % 2 ^ 32
        ∧ t.rd F.SAPp_STAT_HALF_BITS [p] = min rb 255
        ∧ (x.sendFrom3 = none → t.sends = frame 0 0 :: s.sends)
        ∧ (∀ from3, x.sendFrom3 = some from3 → from3 ≤ 3 * (wsEdge : Int) - s.origin3 → s.sapSlots p = [0, 1] → 2 ≤ x.spare.length →
          t.sends = frame (x.spare.getD 0 0) (x.spare.getD 1 0) :: s.sends ∧ (t.serial p).spare = x.spare.drop 2)))
  ∧
  (∀ (s : State) (p : Nat), p < 32 → s.audio = true →
    (∀ cycles, cycles ≠ 0 → Completes (.rateWindowEnd p cycles) s fun t =>
      let mHz := (roundDiv 629145600000000 cycles).toNat
      t.rd F.SAPp_RATE_RATE [p] = min mHz (2 ^ 32 - 1) ∧ t.sapClass p = classOf mHz
        ∧ (s.sapClass p ≠ classOf mHz → t.on F.SAPp_EVT_CLASS_CHG [p] = true))
    ∧ (s.sapClass p ≠ 0 → Completes (.classNone p) s fun t =>
      t.sapClass p = 0 ∧ t.on F.SAPp_STAT_RUN [p] = false ∧ t.on F.SAPp_EVT_CLASS_CHG [p] = true ∧ t.tracking p = []))

/-- R157 to R165: what hosts and time do to a queue. A write enters the assembly word; a flush, and an idle time that has
passed, append the partial word with the number of its bytes, and those of the metadata tags mapped to the queue; POP takes the head
word, and leaves the marks to an append of the same cycle; RESET empties the queue with the tags' words, and its end makes it usable
again. R170, R173: the metadata port. A halfword of a mapped tag enters the tag's assembly word; one of an
unmapped tag is counted and raised as NOTAG; a host that clears EN drops the assembly words and the port's pending records.
-/
def Obligations.QueuesAndMetadata : Prop :=
  (∀ (s : State) (a : Access) (q : Nat), q < 256 →
    let x := s.queue q
    let flushed (t : State) : Prop := (t.queue q).words = x.words ++ [((x.asmBits + 7) / 8, x.asm)] ∧ (t.queue q).asmBits = 0
      ∧ t.rd F.BRMq_CNT_FLUSH_V [q] = (s.rd F.BRMq_CNT_FLUSH_V [q] + 1) % 2 ^ 32
    let room := x.resetting = false ∧ s.queueFull q = false
    (∀ v, v < 2 ^ 32 → s.admits a R.BRMq_WR [q] = true → s.on F.BRMq_CFG_EN [q] = true → s.rd F.BRMq_CFG_WRITER [q] = 0 →
      x.asmBits + 32 < 256 → Completes (.brmWr a q v) s fun t =>
        (t.queue q).asm = x.asm + v * 2 ^ x.asmBits ∧ (t.queue q).asmBits = x.asmBits + 32 ∧ (t.queue q).words = x.words)
    ∧ (s.admits a R.BRMq_CTRL [q] = true →
      (s.tagsOf q = [] → x.asmBits ≠ 0 → room → Completes (.brmFlush a q) s flushed)
      ∧ (∀ tag asm bits, s.tagsOf q = [tag] → x.asmBits = 0 → s.tagWord tag = (asm, bits) → bits ≠ 0 → room →
        Completes (.brmFlush a q) s fun t =>
          (t.queue q).words = x.words ++ [((bits + 7) / 8, asm)] ∧ (t.queue q).writers = x.writers ++ [tag] ∧ t.tagWord tag = (0, 0))
      ∧ (∀ w ws meets, x.resetting = false → x.words = w :: ws → Completes (.pop a ⟨q, meets⟩) s fun t =>
        (t.queue q).words = ws ∧ (t.queue q).last = w
          ∧ (meets = true → (t.queue q).side = x.side ∧ t.rd F.BRMq_CNT_CROSS_V [q] = s.rd F.BRMq_CNT_CROSS_V [q]))
      ∧ Completes (.queueReset a q) s fun t =>
        t.queue q = { BrmQueue.init with last := x.last, resetting := true, wrote3 := x.wrote3 }
          ∧ ∀ tag ∈ s.tagsOf q, t.tagWord tag = (0, 0))
    ∧ (s.on F.BRMq_CFG_EN [q] = true → s.rd F.BRMq_CFG_IDLE [q] ≠ 0 →
      s.elapsed x.wrote3 (s.rd F.BRMq_CFG_IDLE [q] * 3000) = true → s.tagsOf q = [] → x.asmBits ≠ 0 → room →
      Completes (.idleFlush q) s flushed)
    ∧ Completes (.resetComplete q) s fun t => t.queue q = { x with resetting := false } ∧ s.sameWords t [])
  ∧
  (∀ (s : State) (a : Access) (tag : Nat) (d : BitVec 16), tag < 8 →
    (s.audio = true → s.on F.MDI_CTRL_EN = true → s.on F.MDI_TAGMAPt_EN [tag] = true → (s.tagWord tag).2 + 16 < 256 →
      Completes (.mdiHalfword tag (some d) false) s fun t =>
        t.tagWord tag = ((s.tagWord tag).1 + d.toNat * 2 ^ (s.tagWord tag).2, (s.tagWord tag).2 + 16)
          ∧ t.rd F.MDI_CNT_HALFWORDS_V = (s.rd F.MDI_CNT_HALFWORDS_V + 1) % 2 ^ 32)
    ∧ (s.audio = true → s.on F.MDI_CTRL_EN = true → s.on F.MDI_TAGMAPt_EN [tag] = false →
      Completes (.mdiHalfword tag (some d) false) s fun t =>
        t.on F.MDI_EVT_NOTAG = true ∧ t.mdi = s.mdi ∧ t.brm = s.brm
          ∧ t.rd F.MDI_CNT_NOTAG_V = (s.rd F.MDI_CNT_NOTAG_V + 1) % 2 ^ 32)
    ∧ (s.admits a R.MDI_CTRL [] = true → s.txnOwn a = false → s.unblocked R.MDI_CTRL [] = true → s.on F.MDI_CTRL_EN = true →
      Completes (.mdiDisable a) s fun t =>
        t.on F.MDI_CTRL_EN = false ∧ t.mdi = { asm := [], dropped := true }
          ∧ t.scene.store = s.scene.store.filter (·.src != 9)))

/-! ## Renderer, mix, output and convolution -/

/-- R219, R230, R256: fades that have passed. The old layout leaves with SWAP_DONE; the ghost of a crosspoint is released,
and a releasing crosspoint with it; an output's filter crossfade ends with XF_DONE. R233: a delay crossfade that has passed
its 960 samples ends at its new delay, on an input, an object or an output. -/
def Obligations.MixFades : Prop :=
  (∀ (s : State) (n : Nat),
    (∀ b k, s.swapAt = some (b, k) → b + k ≤ s.time.block → Completes .swapDone s fun t =>
      t.swapAt = none ∧ t.on F.QNC_STAT_FADING = false ∧ t.on F.QNC_EVT_SWAP_DONE = true
        ∧ t.rd F.QNC_STAT_LIVE = s.rd F.QNC_STAT_LIVE)
    ∧ (∀ c g, s.xpoint n = some c → c.ghost = some g → g.gain.moving = false → Completes (.ghostRelease n) s fun t =>
      t.xpoint n = some { c with ghost := none } ∧ s.sameWords t [])
    ∧ (∀ c, s.xpoint n = some c → c.releasing = true → c.route.gain.moving = false → c.ghost = none →
      Completes (.routeRelease n) s fun t => t.xpoint n = none ∧ s.sameWords t [])
    ∧ (∀ f k, (s.outChan n).oldFilt = some (f, k) → 1024 ≤ k → Completes (.xfDone n) s fun t =>
      (t.outChan n).oldFilt = none ∧ (t.outChan n).filt = (s.outChan n).filt ∧ t.on F.CNV_EVT_XF_DONE = true
        ∧ t.rd F.CNV_CNT_XFADE_V = (s.rd F.CNV_CNT_XFADE_V + 1) % 2 ^ 32))
  ∧
  (∀ (s : State) (n a d k : Nat), 960 ≤ k →
    ((s.inpChan n).dly.xf = some (a, d, k) → Completes (.delayXfadeEnd 0 n) s fun t =>
      (t.inpChan n).dly.cur = d ∧ (t.inpChan n).dly.xf = none ∧ s.sameWords t [])
    ∧ ((s.objRender n).xf = some (a, d, k) → Completes (.delayXfadeEnd 1 n) s fun t =>
      (t.objRender n).d0 = d ∧ (t.objRender n).d1 = some d ∧ (t.objRender n).xf = none ∧ s.sameWords t [])
    ∧ ((s.outChan n).dly.xf = some (a, d, k) → Completes (.delayXfadeEnd 2 n) s fun t =>
      (t.outChan n).dly.cur = d ∧ (t.outChan n).dly.xf = none ∧ s.sameWords t []))

/-- R258, R259: the coefficient store. A staging job without a cause for refusal starts; its end has written its cells and
no other, and raises STAGE_DONE; a host write to cells that nothing protects stores its bytes and no other. R220: a host
write to the tables of a layout. The tables of one that is neither live nor fading out take the values, but for the reserved bits of
a region (R204) and of a cell (R205), which read 0; those of one that is keep theirs, and TBL_BUSY is counted and raised. -/
def Obligations.MixTables : Prop :=
  (∀ (s : State),
    let stored (t : State) (at' : Nat) (bs : List Byte) : Prop :=
      (∀ k (h : k < bs.length), Memory.read cellBlank t.cells (at' + k) = bs[k])
        ∧ ∀ c, (c < at' ∨ at' + bs.length ≤ c) → Memory.read cellBlank t.cells c = Memory.read cellBlank s.cells c
    (∀ a v, v < 2 ^ 32 → s.admits a R.CNV_STAGE_CTRL [] = true → s.txnOwn a = false →
      s.unblocked R.CNV_STAGE_CTRL [] = true →
      let j : StageJob :=
        { taps := v / 2 % 2 == 1, bank := s.rd F.CNV_STAGE_DST_BANK, cell := s.rd F.CNV_STAGE_DST_CELL
          count := s.rd F.CNV_STAGE_CNT_COUNT, src := s.rd F.CNV_STAGE_SRC_HI_V * 2 ^ 32 + s.rd F.CNV_STAGE_SRC_LO_V }
      s.stageCode j s.protectedFilters = 0 → Completes (.stageGo a v) s fun t =>
        t.stage = some j ∧ t.on F.CNV_STAGE_STAT_BUSY = true ∧ t.cells = s.cells)
    ∧ (∀ j, s.stage = some j → Completes .stageDone s fun t =>
      stored t (cellAddr j.bank j.cell) ((s.stageCells j).map (leBytes 6)).flatten ∧ t.stage = none
        ∧ t.on F.CNV_STAGE_STAT_BUSY = false ∧ t.on F.CNV_EVT_STAGE_DONE = true
        ∧ t.rd F.CNV_CNT_STAGED_V = (s.rd F.CNV_CNT_STAGED_V + 1) % 2 ^ 32)
    ∧ (∀ a addr size v, within 0x1000000 0x1800000 addr = true → size = 1 ∨ size = 2 ∨ size = 4 → addr % size = 0 →
      s.pwr.off = false → s.fab.drains.contains (Access.master a) = false → s.answers addr = true → s.roleOf a ≠ 0 →
      s.alone a = true →
      let bank := (addr - 0x1000000) / 0xC00000
      let off := (addr - 0x1000000) % 0xC00000
      s.windowThere (.coef bank off) size = true → s.cellsBusy bank off size = false →
      Completes (.coefWrite a addr size v) s fun t => stored t (addr - 0x1000000) (leBytes size v)))
  ∧
  (∀ (s : State) (a : Access) (r : Reg) (ix : List Nat) (e : RegEntry) (v : Nat),
    r ∈ [R.RGNe_w, R.GRIDx_c_w, R.QNC_LAYx_SPKs, R.QNC_LAYx_DISTi] → v < 2 ^ 32 → s.admits a r ix = true →
    s.txnOwn a = false → s.unblocked r ix = true → findReg (r.addr ix) a.slot = some (e, ix) → e.reg = r →
    let kept := if r = R.RGNe_w ∧ ix.getD 1 0 = 7 then v % 2 ^ 30
      else if r = R.GRIDx_c_w ∧ ix.getD 2 0 = 1 then v % 2 ^ 23 else v
    (s.tableBusy r ix = false → Completes (.layoutTableWrite a (r.addr ix) v) s fun t =>
      ∀ f ∈ e.fields, f.acc = .rw → f.of (t.word r ix) = f.of (BitVec.ofNat 32 kept))
    ∧ (s.tableBusy r ix = true → (∃ f ∈ e.fields, f.acc = .rw ∧ f.of (BitVec.ofNat 32 v) ≠ f.of (s.word r ix)) →
      Completes (.layoutTableWrite a (r.addr ix) v) s fun t =>
        t.word r ix = s.word r ix ∧ t.on F.QNC_EVT_TBL_BUSY = true
          ∧ t.rd F.QNC_CNT_TBL_BUSY_V = (s.rd F.QNC_CNT_TBL_BUSY_V + 1) % 2 ^ 32))

/-! ## The cascade ring -/

/-- R312, R313, R314: starting the ring. With both links up a device in LINKING goes to ENUM, and the head sends its frames
both ways; their return puts the head in RUN, and those of another head in FAULT; a member passes a frame on with one more hop, runs,
and raises POS_MISMATCH where its place is not its number. R314, R319, R327: an origin of the running ring that is not the head, is not paired and
adds to no line launches its train: one frame of zeros for each line frame, zeroed under its own number while it is in
bypass. -/
def Obligations.RingStart : Prop :=
  (∀ (s : State), s.on F.CAS_CFG_EN = true →
    let groups := (List.range 8).map fun g => (s.word R.CAS_GRPg [g]).toNat
    let enumerated := if s.ring.down.isEmpty then 3 else 4
    (s.rd F.CAS_STAT_STATE = 1 → s.on F.CAS_STAT_DN_LINK = true → s.on F.CAS_STAT_UP_LINK = true → Completes .ringStart s fun t =>
      t.rd F.CAS_STAT_STATE = 2 ∧ t.rd F.CAS_STAT_OPEN = s.rd F.CAS_CFG_SIZE_M1
        ∧ t.sends = if s.isHead then .enumFrame .up { ownReturn := false, hops := 1, groups := groups }
            :: .enumFrame .down { ownReturn := false, hops := 1, groups := groups } :: s.sends else s.sends)
    ∧ (∀ side (f : EnumFrame), s.rd F.CAS_STAT_STATE = 2 → s.ringMute = false →
      (s.isHead = true → f.ownReturn = false → Completes (.enumFrame side f) s fun t =>
        t.rd F.CAS_STAT_STATE = 6 ∧ t.on F.CAS_EVT_HEAD_CONFLICT = true ∧ t.sends = s.sends)
      ∧ (s.isHead = true → f.ownReturn = true → Completes (.enumFrame side f) s fun t =>
        t.rd F.CAS_STAT_STATE = enumerated ∧ t.sends = s.sends)
      ∧ (s.isHead = false → Completes (.enumFrame .up f) s fun t =>
        t.rd F.CAS_STAT_STATE = enumerated ∧ t.sends = .enumFrame .down { f with hops := f.hops + 1 } :: s.sends
          ∧ (f.hops % s.casSize ≠ s.dev → t.on F.CAS_EVT_POS_MISMATCH = true ∧ t.ring.posBad = true))))
  ∧
  (∀ (s : State) (dir : Side) (w : Nat),
    s.casRuns = true → s.isOrigin dir = true → s.isHead = false → s.paired = false → (∀ g, s.addsTo dir g = false) →
    Completes (.trainLaunch dir w) s fun t =>
      t.sends = ((s.lineFrames.map fun p => Output.linesFrame dir
          { group := p.1, frame := p.2, zeroed := !s.aligned, zhop := if s.aligned then 0 else s.dev, block := s.ringTag
            crcGood := true, words := zeros512 }).reverse) ++ s.sends
        ∧ s.sameWords t [])

/-- R317, R324, R326, R327, R342, R378: line frames at a member. In bypass, and on a part in Safe Mute, a frame goes on unchanged, and
so it does at a unit whose claim gate is closed; at an aligned sink a frame in its place with the right check and tag is taken; the
deadline closes the train, and the frames that have not come are counted as late. -/
def Obligations.RingLines : Prop :=
  ∀ (s : State) (dir : Side) (f : LinesFrame),
    (s.ringMute = true → Completes (.linesFrame dir f) s fun t => t.sends = .linesFrame dir f :: s.sends ∧ t.ring = s.ring)
    ∧ (s.casRuns = true → s.isHead = false → s.ringMute = false →
    (s.aligned = false ∨ s.gate = false → s.isEnd dir = false →
      (s.aligned = true → s.framesSeen dir < s.lineFrames.length) → Completes (.linesFrame dir f) s fun t =>
      t.sends = .linesFrame dir f :: s.sends ∧ t.framesSeen dir = s.framesSeen dir + 1)
    ∧ (s.aligned = true → s.lineFrames[s.framesSeen dir]? = some (f.group, f.frame) → f.crcGood = true → f.zeroed = false →
      f.block = s.ringTag → s.rd F.CAS_GRPg_SINK [f.group] = s.dev → s.ring.closed.contains dir = false →
      Completes (.linesFrame dir f) s fun t =>
        t.ring.rx = (dir, f.group, f.frame, f.words) :: s.ring.rx ∧ t.framesSeen dir = s.framesSeen dir + 1)
    ∧ (s.aligned = true → s.isOrigin dir = false → s.ring.closed.contains dir = false →
      let mine := s.lineFrames.filter fun p => s.rd F.CAS_GRPg_SINK [p.1] == s.dev
      let missing := mine.filter fun p => !s.ring.rx.any fun x => x.1 == dir && x.2.1 == p.1 && x.2.2.1 == p.2
      Completes (.lineDeadline dir) s fun t =>
        t.ring.closed = dir :: s.ring.closed
          ∧ (missing ≠ [] → t.ring.lost = true ∧ t.on F.CAS_EVT_LATE = true
            ∧ t.rd F.CAS_CNT_LATE_V = (s.rd F.CAS_CNT_LATE_V + missing.length) % 2 ^ 32)))

/-- R321, R333: ring time. A TIME frame sets the offset of a member's ring reference and goes on with the link's delay and
the time it spent here added; a DELAY exchange enters the average of the link. R328, R329, R332: breaks of the ring. The
first link to go down makes its neighbours send notices and a wrap due 100 µs later; the wrap moves the open link there;
with every link up again the ring runs as before, no train moves, and the head sends its ENUM frames again (log entry 177). -/
def Obligations.RingTimeAndBreaks : Prop :=
  (∀ (s : State),
    (∀ dir timeNs block corr held arrival, s.casRuns = true → s.isHead = false → s.isEnd dir = false → s.ringMute = false →
      Completes (.timeFrame dir timeNs block corr held arrival) s fun t =>
        let c := corr + s.inDelay dir
        t.ring.refOfs = some (((timeNs : Int) - arrival) * 65536 + c)
          ∧ t.sends = .timeFrame dir timeNs block (c + held * 65536) :: s.sends)
    ∧ (∀ trip turn, s.on F.CAS_CFG_EN = true →
      let l := (((trip - turn) / 2) :: s.ring.dnDelays).take 16
      let m := (((trip - turn) / 2) :: s.ring.upDelays).take 16
      Completes (.delayFrame .down trip turn) s (fun t =>
        t.ring.dnDelays = l ∧ t.rd F.CAS_LINKDLY_DN_DELAY = l.sum / l.length % 2 ^ F.CAS_LINKDLY_DN_DELAY.width)
      ∧ Completes (.delayFrame .up trip turn) s fun t =>
        t.ring.upDelays = m ∧ t.rd F.CAS_LINKDLY_UP_DELAY = m.sum / m.length % 2 ^ F.CAS_LINKDLY_UP_DELAY.width))
  ∧
  (∀ (s : State) (l : Nat), s.on F.CAS_CFG_EN = true →
    (l < s.casSize → s.casRuns = true → s.ring.down = [] → l ≠ s.rd F.CAS_STAT_OPEN → s.reachesHead [l] = true →
      Completes (.ringLinkDown l) s fun t =>
        t.ring.down = [l] ∧ t.ring.wrapDue = (l, s.upNow3 + 300000) :: s.ring.wrapDue
          ∧ (l = s.dev ∨ l = s.upLink → t.sends = .wrapNotice l :: s.sends)
          ∧ t.on F.CAS_STAT_DN_LINK = decide (l ≠ s.dev))
    ∧ (∀ due3, s.ring.wrapDue = [(l, due3)] → due3 ≤ s.time.up3 → s.ring.tun = [] → Completes .wrap s fun t =>
      t.rd F.CAS_STAT_OPEN = l % 64 ∧ t.rd F.CAS_STAT_STATE = 4 ∧ t.on F.CAS_EVT_WRAP = true ∧ t.ring.wrapDue = []
        ∧ t.rd F.CAS_CNT_WRAP_V = (s.rd F.CAS_CNT_WRAP_V + 1) % 2 ^ 32)
    ∧ (s.rd F.CAS_STAT_STATE = 4 → s.ring.down = [l] → Completes (.ringLinkUp l) s fun t =>
      let f : EnumFrame := { ownReturn := false, hops := 1, groups := (List.range 8).map fun g => (s.word R.CAS_GRPg [g]).toNat }
      t.ring.down = [] ∧ t.rd F.CAS_STAT_STATE = 3 ∧ t.on F.CAS_EVT_RESTORE = true ∧ t.on F.CAS_STAT_DN_LINK = true
        ∧ t.rd F.CAS_STAT_OPEN = s.rd F.CAS_STAT_OPEN
        ∧ t.sends = if s.isHead then .enumFrame .up f :: .enumFrame .down f :: s.sends else s.sends))

/-- R334, R336: the management tunnel. A member performs a request as a local access and answers its value; the head ends an
access whose last word is answered; a request without an answer ends, and is counted. R337: the head's write of CAS_RST
sends a reset to the device it names; the head's reset asserts the cause RING at a member. -/
def Obligations.RingTunnel : Prop :=
  (∀ (s : State),
    (∀ (a : Access) addr size w u v, s.on F.CAS_CFG_EN = true → s.isHead = false → s.rd F.CAS_STAT_STATE ≠ 5 →
      s.pwr.off = false → s.fab.drains.contains 2 = false →
      s.localWord { a with iface := .tunnel } (addr % 0x4000000) size w = (u, .ok v) →
      exec (.tunnelRequest a addr size w) s = .next (u.emit (.tunnelAnswer (if w.isNone then v else 0) 0)).ended)
    ∧ (∀ dev value j rest addr size, takeOldest dev s.ring.tun = some (j, rest) → j.todo = [(addr, size, none)] →
      exec (.tunnelAnswer dev value 0) s
        = .next (({ s with ring := { s.ring with tun := rest } } : State).jobEnd
            { access := j.access, reads := j.reads, todo := [], got := j.got ++ [value] } 0).ended)
    ∧ (∀ dev j rest w ws, takeOldest dev s.ring.tun = some (j, rest) → j.todo = w :: ws →
      Completes (.tunnelTimeout dev) s fun t =>
        t.ring.tun = rest ∧ t.rd F.CAS_CNT_TUN_TIMEOUT_V = (s.rd F.CAS_CNT_TUN_TIMEOUT_V + 1) % 2 ^ 32
          ∧ t.rd F.FAB_BERR_INFO_CAUSE = 7))
  ∧
  (∀ (s : State),
    (∀ a v, v < 2 ^ 32 → s.admits a R.CAS_RST [] = true → s.txnOwn a = false → s.unblocked R.CAS_RST [] = true → s.isHead = true →
      v / 64 % 2 = 0 → v % 64 ≠ 0 → Completes (.ringReset (some a) v) s fun t => Output.ringReset (v % 64) ∈ t.sends)
    ∧ (∀ v, s.on F.CAS_CFG_EN = true → s.isHead = false → Completes (.ringReset none v) s fun t =>
      t.pwr.causes = s.pwr.causes ||| 16 ∧ s.sameWords t [] ∧ t.sends = s.sends))

/-! ## The redundant pair -/

/-- R342, R344, R347: claims. CLAIM_IN follows the partner's line; a unit that finds both claims asserted and has the higher
number drops its own and resynchronises; a unit that may claim does so, and becomes ACTIVE. R346, R349: RED_CTRL. YIELD of
an ACTIVE unit whose partner is a fresh standby without a fault drops the claim with the cause YIELD; RESYNC of a STANDBY
unit starts a new copy. -/
def Obligations.PairClaims : Prop :=
  (∀ (s : State),
    (∀ level, Completes (.claimInChange level) s fun t => t.on F.RED_STAT_CLAIM_IN = level)
    ∧ (s.paired = true → s.on F.RED_STAT_CLAIM_OUT = true → s.rd F.RED_CFG_PARTNER < s.dev →
      Completes (.claimInChange true) s fun t =>
        t.on F.RED_STAT_CLAIM_OUT = false ∧ t.redState = 1 ∧ t.pair.copied = false ∧ t.on F.RED_EVT_CONTENTION = true
          ∧ t.rd F.RED_CNT_CONTENTION_V = (s.rd F.RED_CNT_CONTENTION_V + 1) % 2 ^ 32)
    ∧ (s.mayClaim = true → s.liveCauses &&& hardMask = 0 → s.on F.CLK_STAT_HO_OOS = false → Completes .claim s fun t =>
      t.on F.RED_STAT_CLAIM_OUT = true ∧ t.redState = 3 ∧ t.on F.RED_EVT_CLAIMED = true
        ∧ t.rd F.RED_CNT_SWITCH_V = (s.rd F.RED_CNT_SWITCH_V + 1) % 2 ^ 32
        ∧ t.rd F.RED_SWBLOCK_LO_V = s.time.block % 2 ^ 32
        ∧ (s.redState ≠ 0 → ∃ live, t.pair.hold = some (s.time.block, live))))
  ∧
  (∀ (s : State) (a : Access), s.admits a R.RED_CTRL [] = true → s.paired = true →
    (∀ ho, s.redState = 3 → s.pair.partner = some (2, false, ho) → s.on F.RED_STAT_FAULT_IN = false →
      Completes (.yieldControl a) s fun t =>
        t.on F.RED_STAT_CLAIM_OUT = false ∧ t.redState ≠ 3 ∧ t.on F.RED_EVT_YIELDED = true
          ∧ t.rd F.RED_LASTCAUSE_CAUSE = s.rd F.RED_CAUSE_CAUSE ||| 0x80)
    ∧ (s.redState = 2 → Completes (.resync a) s fun t =>
      t.redState = 1 ∧ t.pair.copied = false ∧ t.on F.RED_STAT_STALE = false))

/-- R345: an uncorrectable ECC error is a cause, and an ACTIVE unit gives up control at once: it drops its claim, records
its causes, raises YIELDED and is FAILED. R348, R349, R360: the partner's fault and silence. PAIR_FAULT_IN shows its level
and on a paired unit its rise is an event, which makes a standby stale; so do 3 blocks without a mirror frame; a unit whose copy is complete
and acknowledged is STANDBY. R350, R360: what the partner link brings. An active unit learns its partner's state and which
commits it holds; a fresh standby takes the active's commits for later blocks, and resynchronises on one that it was not told of before
its block; a unit that resynchronises applies the copied configuration. -/
def Obligations.PairPartner : Prop :=
  (∀ (s : State),
    let gaveUp (t : State) : Prop := t.on F.RED_STAT_CLAIM_OUT = false ∧ t.redState = 4 ∧ t.on F.RED_EVT_YIELDED = true
      ∧ t.rd F.RED_LASTCAUSE_CAUSE = t.rd F.RED_CAUSE_CAUSE
    Completes .eccSram s (fun t => t.rd F.RED_CAUSE_CAUSE % 2 = 1 ∧ (s.paired = true → s.redState = 3 → gaveUp t))
    ∧ Completes .eccDram s fun t => t.rd F.RED_CAUSE_CAUSE / 2 % 2 = 1 ∧ (s.paired = true → s.redState = 3 → gaveUp t))
  ∧
  (∀ (s : State),
    Completes .pairFaultInDeassert s (fun t => t.on F.RED_STAT_FAULT_IN = false)
    ∧ (s.on F.RED_STAT_FAULT_IN = false → Completes .partnerFault s fun t =>
      t.on F.RED_STAT_FAULT_IN = true
        ∧ (s.paired = true → t.on F.RED_EVT_PARTNER_FAULT = true
          ∧ (s.redState = 2 → t.on F.RED_STAT_STALE = true ∧ t.on F.RED_EVT_PARTNER_LOST = true))
        ∧ (s.paired = false → t.rd F.RED_EVT_PARTNER_FAULT = s.rd F.RED_EVT_PARTNER_FAULT))
    ∧ (s.paired = true → s.redState = 2 → s.on F.RED_STAT_STALE = false → s.pair.heard + 3 ≤ s.time.block →
      Completes .partnerLost s fun t =>
        t.on F.RED_STAT_STALE = true ∧ t.on F.RED_EVT_PARTNER_LOST = true ∧ t.redState = 2)
    ∧ (s.paired = true → s.redState = 1 → s.pair.copied = true → Completes .synced s fun t =>
      t.redState = 2 ∧ t.on F.RED_EVT_SYNCED = true ∧ t.pair.heard = s.time.block))
  ∧
  (∀ (s : State), s.paired = true →
    (∀ f : MirrorFrame, s.redState = 3 → Completes (.mirrorFrame f) s fun t =>
      t.pair.partner = some (f.partnerState, f.partnerStale, f.partnerHoldoverInSpec) ∧ t.pair.acked = f.acked
        ∧ t.pair.unacked = s.pair.unacked.filter (fun c => !f.acked.contains c) ∧ t.commits = s.commits ∧ t.scene = s.scene)
    ∧ (∀ f : MirrorFrame, f.fromActive = true → s.redState = 2 → s.on F.RED_STAT_STALE = false →
      (∀ c ∈ f.commits, s.time.block < c.1) → Completes (.mirrorFrame f) s fun t =>
        t.redState = 2 ∧ t.pair.heard = s.time.block ∧ t.pair.acked = f.acked ∧ (∀ c ∈ f.commits, c ∈ t.pair.known)
          ∧ (∀ c ∈ f.commits, ∃ d ∈ t.commits, d.block = some c.1 ∧ d.writes = c.2) ∧ ∀ c ∈ s.commits, c ∈ t.commits)
    ∧ (∀ (f : MirrorFrame) (c : CommitRecord), f.fromActive = true → s.redState = 2 → c ∈ f.commits → c.1 ≤ s.time.block →
      c ∉ s.pair.known → Completes (.mirrorFrame f) s fun t => t.redState = 1 ∧ t.pair.copied = false ∧ t.pair.known = [])
    ∧ (∀ config, s.redState = 1 → s.pair.copied = false →
      let u := s.applyWrites config
      exec (.resyncConfigApplied config) s = .next ({ u with pair := { u.pair with copied := true } } : State).ended))

/-! ## Boot, resets and power -/

/-- R367, R374, R375, R378: the boot. Without a flash, or with no slot that is a candidate, the device comes up in Safe Mute
with the causes of both slots. Otherwise it tries the slots in their order: one that loads starts; one that fails leaves its
cause, and the next is tried unless the cause is one that ends in Safe Mute. Audio may start with a reference locked (log entry 167).
The statement holds whichever place of the flash cannot be read (log entry 182). -/
def Obligations.BootOutcomes : Prop :=
  ∀ (s : State) (dram : DramFound) (bad : Option (Nat × Nat)) (lock : Option BootLock), s.booted = false → s.pwr.held = false →
    s.pwr.off = false → s.pwr.causes = 0 →
    let u := State.bootReady { s with boot := { s.boot with badRead := bad } } dram
    let landed (t : State) : State :=
      let t : State := { t with boot := { t.boot with badRead := none } }
      match lock with
      | some k => t.bootLocked k
      | none => t
    let mute (t : State) (cause : Nat) : Prop := t.rd F.SYS_BOOTSTAT_STATE = 2 ∧ t.rd F.SYS_BOOTSTAT_CAUSE_A = cause
      ∧ t.rd F.SYS_BOOTSTAT_CAUSE_B = cause ∧ t.on F.CAS_STAT_BYPASS = true ∧ t.on F.RED_STAT_CLAIM_OUT = false
    Completes (.boot ⟨dram, bad, lock⟩ false) s (fun t => mute t 7)
    ∧ (s.candidate 0 = false → s.candidate 1 = false → Completes (.boot ⟨dram, bad, lock⟩ true) s fun t => mute t 1)
    ∧ ∀ k rest, u.bootOrder = k :: rest →
      (∀ t, (u.nextUsed.wr F.SYS_BOOTSTAT_SLOT k).trySlot k = .ok t → exec (.boot ⟨dram, bad, lock⟩ true) s = .next (landed t).ended)
      ∧ (∀ f d, (u.nextUsed.wr F.SYS_BOOTSTAT_SLOT k).trySlot k = .error (f, d) →
        let v : State := { (u.nextUsed.wr F.SYS_BOOTSTAT_SLOT k).bootFailed k f with dram := d }
        exec (.boot ⟨dram, bad, lock⟩ true) s = .next (landed (if 10 ≤ f.1 then v.safeMute else v.trySlots rest)).ended)

/-- R366, R368, R369, R370, R377: what a slot must be to load. A slot whose header cannot be read fails with cause 7 (log entry 182);
one whose header is outside its rules with 2, whose key does not pass with 3, whose signature does not with 4, whose rollback index
lies below the fused one with 5; one that asks for more than the part has, with every check before passed, its table in order and its
sections valid, with 10. -/
def Obligations.BootSlotChecks : Prop :=
  ∀ (s : State) (k : Nat),
    let fails (c : Nat) : Prop := s.trySlot k = .error ((c, 0xFF, 0), s.dram)
    let n := s.slotSections k
    let table := (List.range n).map fun i => s.section k i
    (s.boot.badRead = some (k, 255) → fails 7)
    ∧ (s.boot.badRead ≠ some (k, 255) → (s.headerBad k = true → fails 2)
    ∧ (s.headerBad k = false → (s.slotKeyOk k = false → fails 3)
      ∧ (s.slotKeyOk k = true → (s.slotSigOk k = false → fails 4)
        ∧ (s.slotSigOk k = true → (s.slotField k 20 2 < s.sec.rollback → fails 5)
          ∧ (s.sec.rollback ≤ s.slotField k 20 2 → tableBad (s.slotField k 28 4) table 0 (256 + 48 * n) = none →
            (∀ e ∈ table, e.invalid = false) → capsMet (s.slotField k 8 4) (partCaps s.part) = false → fails 10)))))

/-- R368, R379, R381, R382: the flash commands, the rollback index and the journal. A command that is permitted starts with
its code and address; one that is not leaves its error and starts nothing. Its end has read the page into the buffer,
programmed the page from it, or erased the range to FFH, and touched nothing else. RB_ADVANCE raises the fused index; a
durable group joins the journal, and a clear that nothing waits for empties it. -/
def Obligations.BootFlashAndJournal : Prop :=
  ∀ (s : State),
    (∀ a, s.admits a R.BOOT_FCMD [] = true → s.txnOwn a = false → s.unblocked R.BOOT_FCMD [] = true →
      let addr := s.rd F.BOOT_FADDR_ADDR
      let asks (i : Instr) (k : Nat) : Prop := Completes i s fun t => t.flash = s.flash
        ∧ t.rd F.BOOT_FSTAT_ERR = s.fcmdError k addr
        ∧ (s.fcmdError k addr = 0 → t.on F.BOOT_FSTAT_BUSY = true ∧ t.boot.cmd = some (k, addr))
        ∧ (s.fcmdError k addr ≠ 0 → t.boot.cmd = s.boot.cmd ∧ t.on F.BOOT_EVT_FCMD_ERR = true)
      asks (.readPage a) 0 ∧ asks (.programPage a) 1 ∧ asks (.eraseSector a) 2 ∧ asks (.eraseSlot a) 3)
    ∧ (∀ k addr, s.boot.cmd = some (k, addr) → Completes (.fcmdDone false) s fun t =>
      let len := (s.fcmdRange k addr).2
      t.boot.cmd = none ∧ t.on F.BOOT_FSTAT_BUSY = false ∧ t.on F.BOOT_EVT_FCMD_DONE = true
        ∧ (k = 0 → t.flash = s.flash ∧ t.regBytes R.BOOT_FBUFi 64 (fun i => [i]) = s.flashRead addr 256)
        ∧ (k = 1 → t.flashRead addr 256 = s.regBytes R.BOOT_FBUFi 64 fun i => [i])
        ∧ (2 ≤ k → ∀ x, addr ≤ x → x < addr + len → Memory.read flashBlank t.flash x = 0xFF)
        ∧ ∀ x, (x < addr ∨ addr + len ≤ x) → Memory.read flashBlank t.flash x = Memory.read flashBlank s.flash x)
    ∧ (∀ a, s.admits a R.BOOT_CTRL [] = true → s.running = true → Completes (.rbAdvance a) s fun t =>
      t.sec.rollback = max s.sec.rollback (s.slotField (s.rd F.SYS_BOOTSTAT_SLOT) 20 2) ∧ t.flash = s.flash)
    ∧ (∀ g rest, s.boot.waiting = g :: rest → s.boot.clear = false → Completes .persistDone s fun t =>
      t.boot.waiting = rest ∧ t.boot.journal = (s.boot.journal.filter fun j => j.digest == g.digest) ++ [g]
        ∧ t.on F.BOOT_EVT_PERSIST_DONE = true ∧ t.rd F.BOOT_CNT_PGROUPS_V = (s.rd F.BOOT_CNT_PGROUPS_V + 1) % 2 ^ 32)
    ∧ (∀ a, s.admits a R.BOOT_PCTRL [] = true → Completes (.journalClear a) s fun t =>
      (s.boot.waiting = [] → t.boot.journal = [] ∧ t.boot.clear = false)
        ∧ (s.boot.waiting ≠ [] → t.boot.journal = s.boot.journal ∧ t.boot.clear = true))

/-- R427, R428, R429, R430: resets. A supply below its threshold asserts the cause POR and holds the device; 48 low samples
of the pin assert PIN; a write with the key asserts SOFT, one without it nothing. A reset that is due leaves the causes in
SYS_RSTCAUSE, ends every session, transaction and commit, and waits for the boot; the flash stays, and so does DRAM where
the causes leave it. -/
def Obligations.Resets : Prop :=
  ∀ (s : State),
    Completes (.por false) s (fun t => t.pwr.held = true ∧ t.pwr.causes = s.pwr.causes ||| 1)
    ∧ Completes (.por true) s (fun t => t.pwr = { s.pwr with held := false } ∧ s.sameWords t [])
    ∧ (∀ n, Completes (.pinReset n) s fun t => t.pwr.causes = (if 48 ≤ n then s.pwr.causes ||| 2 else s.pwr.causes)
      ∧ s.sameWords t [])
    ∧ (∀ a v, v < 2 ^ 32 → s.admits a R.SYS_RSTCTRL [] = true → Completes (.softReset a v) s fun t =>
      t.pwr.causes = if v % 2 = 1 ∧ v / 65536 = 0xA5C3 then s.pwr.causes ||| 8 else s.pwr.causes)
    ∧ (s.resetDue = true → Completes .reset s fun t =>
      t.rd F.SYS_RSTCAUSE_CAUSE = s.pwr.causes % 32 ∧ t.booted = false ∧ t.pwr.causes = 0 ∧ t.pwr.goal = none
        ∧ t.sec.ses = [] ∧ t.txn = [] ∧ t.commits = [] ∧ t.flash = s.flash ∧ t.sec.fuses = s.sec.fuses
        ∧ (s.pwr.causes % 4 = 0 → t.dram = s.dram)
        ∧ (s.pwr.causes % 2 = 0 → t.rd F.SYS_CNT_RESETS_V = (s.rd F.SYS_CNT_RESETS_V + 1) % 2 ^ 32))

/-- R433, R435, R436, R437, R439: requests for a power state. One that is refused leaves its error and raises PWR_REFUSED;
one that is taken sets BUSY with its target, which applies two blocks later on an ACTIVE unit of a pair; in STANDBY a
request for RUN begins the exit. R438, R439: wake sources. In STANDBY an enabled source begins the exit, the pin at the level
that PIN_POL names; during the entry the pin and the pattern wait for its end; out of OFF the reset pin and an enabled wake pin assert
the cause PIN. -/
def Obligations.PowerStates : Prop :=
  (∀ (s : State) (a : Access), s.admits a R.SYS_PWRCTRL [] = true → s.txnOwn a = false → s.unblocked R.SYS_PWRCTRL [] = true →
    let asks (i : Instr) (k : Nat) : Prop :=
      (s.pwrError k ≠ 0 → Completes i s fun t => t.rd F.SYS_STAT_PWR_ERR = s.pwrError k
        ∧ t.on F.SYS_EVT_PWR_REFUSED = true ∧ t.pwr = s.pwr ∧ t.rd F.SYS_STAT_PWR = s.rd F.SYS_STAT_PWR)
      ∧ (s.pwrError k = 0 → s.rd F.SYS_STAT_PWR ≠ 2 → Completes i s fun t => t.pwr.goal = some k
        ∧ t.pwr.at' = (if k ≤ 1 ∧ s.paired = true ∧ s.redState = 3 then some (s.time.block + 2) else none)
        ∧ t.on F.SYS_STAT_BUSY = true ∧ t.rd F.SYS_STAT_PWR = s.rd F.SYS_STAT_PWR ∧ t.rd F.SYS_STAT_PWR_ERR = 0)
    asks (.pwrRun a) 0 ∧ asks (.pwrQuiet a) 1 ∧ asks (.pwrStandby a) 2 ∧ asks (.pwrOff a) 3
    ∧ (s.rd F.SYS_STAT_PWR = 2 → s.pwrError 0 = 0 → s.pwr.exit = false → s.pwr.goal = none → Completes (.pwrRun a) s fun t =>
      t.pwr.exit = true ∧ t.on F.SYS_STAT_BUSY = true))
  ∧
  (∀ (s : State) (src : WakeSource),
    let pin := ∃ level, src = .pin level ∧ s.on F.SYS_WAKE_PIN_EN = true ∧ level ≠ s.on F.SYS_WAKE_PIN_POL
    let enabled := pin ∨ src = .pattern ∧ s.on F.SYS_WAKE_PAT_EN = true
    (s.pwr.off = false → s.rd F.SYS_STAT_PWR = 2 → s.pwr.exit = false → s.pwr.goal = none → src = .host ∨ enabled →
      Completes (.wake src) s fun t => t.pwr.exit = true ∧ t.on F.SYS_STAT_BUSY = true)
    ∧ (s.pwr.off = false → s.rd F.SYS_STAT_PWR ≠ 2 → s.pwr.goal = some 2 → enabled → Completes (.wake src) s fun t =>
      t.pwr = { s.pwr with wake := true } ∧ s.sameWords t [])
    ∧ (s.pwr.off = true → src = .resetPin ∨ pin → Completes (.wake src) s fun t =>
      t.pwr.causes = s.pwr.causes ||| 2 ∧ s.sameWords t []))

/-- R449, R457: the supply monitor and the thermal sensor. A rail outside its window shows in OUT, and the first raises
SUPPLY; a reading shows in SYS_TEMP, raises WARN where it first reaches it, sets THERMAL and raises TRIP at the trip point,
and clears THERMAL 5 degrees below; a critical one turns the device OFF, and a reading at or below 105 degrees then lets it
start again. -/
def Obligations.SensorReadings : Prop :=
  ∀ (s : State),
    (∀ rail, rail < 9 → Completes (.supply rail) s fun t =>
      t.rd F.SYS_SUPPLY_OUT = s.rd F.SYS_SUPPLY_OUT ||| 2 ^ rail
        ∧ (s.rd F.SYS_SUPPLY_OUT = 0 → t.on F.SYS_HW_EVT_SUPPLY = true)
        ∧ s.sameWords t [R.SYS_SUPPLY.key [], R.SYS_HW_EVT.key []])
    ∧ (∀ rail, rail < 9 → Completes (.railInWindow rail) s fun t =>
      (∀ k, k < 9 → (t.rd F.SYS_SUPPLY_OUT).testBit k = (decide (k ≠ rail) && (s.rd F.SYS_SUPPLY_OUT).testBit k))
        ∧ s.sameWords t [R.SYS_SUPPLY.key []])
    ∧ (∀ x : Int, s.pwr.off = false → s.pwr.crit = false → -32768 ≤ x → x < 12500 → Completes (.tempUpdate x) s fun t =>
      let trip := (s.rd F.SYS_THERM_TRIP : Int) * 100
      t.rd F.SYS_TEMP_TEMP = ofSigned 16 x ∧ t.on F.SYS_TEMP_VALID = true
        ∧ ((s.rd F.SYS_THERM_WARN : Int) * 100 ≤ x → s.pwr.warm = false → t.on F.SYS_HW_EVT_WARN = true)
        ∧ (trip ≤ x → t.on F.SYS_THERM_THERMAL = true ∧ t.on F.SYS_HW_EVT_TRIP = true)
        ∧ (x ≤ trip - 500 → t.on F.SYS_THERM_THERMAL = false)
        ∧ (trip ≤ x → s.on F.SYS_THERM_THERMAL = false → s.on F.SYS_THERM_TRIP_QUIET = true → s.booted = true →
          s.rd F.SYS_STAT_PWR = 0 → s.pwr.goal = none → t.pwr.goal = some 1 ∧ t.on F.SYS_STAT_BUSY = true))
    ∧ (∀ x : Int, 12500 ≤ x → s.pwr.off = false → Completes (.tempUpdate x) s fun t =>
      t.pwr.off = true ∧ t.pwr.crit = true ∧ t.on F.SYS_THERM_CRIT_SEEN = true ∧ t.booted = false)
    ∧ (∀ x : Int, x ≤ 10500 → s.pwr.off = true → s.pwr.crit = true → Completes (.tempUpdate x) s fun t =>
      t.pwr.crit = false ∧ t.pwr.causes = s.pwr.causes ||| 2)

/-! ## Sessions, transactions and the log -/

/-- R404, R406: opening a session. A REQ for a role with a key starts the draw; from a locked-out interface it is refused;
the drawn challenge stands in its slot, and after 1 s without a PROVE the slot is FREE again; a PROVE of a standing
challenge is checked, and a second one while the first is checked starts the check again (log entry 183). -/
def Obligations.SessionChallenge : Prop :=
  ∀ (s : State) (a : Access) (v : Nat), a.slot < 8 → v < 2 ^ 29 → s.txnOwn a = false → s.reaches a R.SEC_OPEN_CTRL [] = true →
    let role := v / 2 ^ 24 % 4
    let unlock := v / 2 ^ 28 % 2 == 1
    let i := a.slot
    (s.secState i = 0 → s.sec.locked.lookup (Iface.code a.iface) = none → role = 1 ∨ role = 2 → unlock = false →
      s.roleKeys role ≠ [] → Completes (.openReq a v) s fun t =>
        t.sec.ses.lookup i = some { iface := a.iface, role := role, unlock := false, step := 2 }
          ∧ t.on F.SEC_OPEN_STAT_PEND [i] = true ∧ t.rd F.SEC_OPEN_STAT_ERR [i] = 0 ∧ t.secState i = 0)
    ∧ (∀ since3, s.sec.locked.lookup (Iface.code a.iface) = some since3 → Completes (.openReq a v) s fun t =>
      t.rd F.SEC_OPEN_STAT_ERR [i] = 4 ∧ t.on F.SEC_EVT_OPEN_FAIL = true ∧ t.sec.ses = s.sec.ses)
    ∧ (∀ x, s.sec.ses.lookup i = some x → x.step = 2 → Completes (.challengeDrawn i) s fun t =>
      t.sec.ses.lookup i = some { x with step := 0, drawn3 := s.upNow3 } ∧ t.secState i = 1
        ∧ t.rd F.SEC_OPEN_STAT_IFACE [i] = Iface.code x.iface % 2 ∧ t.on F.SEC_OPEN_STAT_PEND [i] = false)
    ∧ (∀ x, s.sec.ses.lookup i = some x → s.secState i = 1 → x.step = 0 → s.elapsed x.drawn3 3000000000 = true →
      Completes (.expired i) s fun t =>
        t.sec.ses.lookup i = none ∧ t.secState i = 0 ∧ t.rd F.SEC_OPEN_STAT_ERR [i] = 3)
    ∧ (∀ x, s.sec.ses.lookup i = some x → s.secState i = 1 → x.step ≠ 2 → x.iface = a.iface →
      s.time.up3 ≤ x.drawn3 + 3000000000 → s.hostKeys x.role ≠ [] → Completes (.prove a v) s fun t =>
        (∃ y, t.sec.ses.lookup i = some y ∧ y.step = 4 ∧ y.role = x.role) ∧ t.on F.SEC_OPEN_STAT_PEND [i] = true)

/-- R404, R406, R407, R408: the end of an opening, and of a session. A right MAC opens the session with its role and raises
OPEN; a wrong one refuses it with AUTH; an unlocking in FIELD burns a fuse either way. CLOSE frees the slot and raises
CLOSE; the lock-out of an interface ends after 10 s. -/
def Obligations.SessionOutcome : Prop :=
  ∀ (s : State) (i : Nat), i < 8 →
    let fuses (x : Session) : Nat :=
      if x.role = 3 ∧ x.unlock = true ∧ s.lifecycle = 7 then s.sec.unlocks - 1 else s.sec.unlocks
    (∀ x, s.sec.ses.lookup i = some x → x.step = 4 → x.role < 4 →
      (x.openKey ≠ [] → Completes (.macChecked i) s fun t =>
        t.sec.ses.lookup i = some { x with step := 0 } ∧ t.secState i = 2 ∧ t.rd F.SEC_OPEN_STAT_ROLE [i] = x.role
          ∧ t.rd F.SEC_OPEN_HANDLE_V [i] ≠ 0 ∧ t.on F.SEC_EVT_OPEN = true ∧ t.sec.unlocks = fuses x)
      ∧ (x.openKey = [] → Completes (.macChecked i) s fun t =>
        t.sec.ses.lookup i = none ∧ t.secState i = 0 ∧ t.rd F.SEC_OPEN_STAT_ERR [i] = 1 ∧ t.on F.SEC_EVT_OPEN_FAIL = true
          ∧ t.sec.unlocks = fuses x))
    ∧ (∀ a x, a.slot = i → s.admits a R.SEC_OPEN_CTRL [] = true → s.sessionOf a = some x → Completes (.sessionClose a) s fun t =>
      t.sec.ses.lookup i = none ∧ t.secState i = 0 ∧ t.on F.SEC_EVT_CLOSE = true ∧ t.keys = s.keys)
    ∧ ∀ f since3, s.sec.locked.lookup (Iface.code f) = some since3 → s.elapsed since3 30000000000 = true →
      Completes (.lockoutEnd f) s fun t => t.sec.locked.lookup (Iface.code f) = none ∧ t.sec.ses = s.sec.ses ∧ s.sameWords t []

/-- R409, R420, R423: keys and the lifecycle. A wrapped key that unwraps under the session's own key, for a role below it,
takes its slot; one for role 0 or 3 is refused. A permitted move burns its bits and requests a reset; one that is not leaves
its error; a move to RETURNED leaves no key in the journal. In BLANK revocations wait in the register; in PROVISIONED they are burned. -/
def Obligations.KeysAndLifecycle : Prop :=
  ∀ (s : State) (a : Access) (v : Nat), s.txnOwn a = false →
    (v < 2 ^ 30 → s.admits a R.SEC_KLOAD_CTRL [] = true →
      let role := v / 2 ^ 8 % 4
      let slot := v % 2
      (∀ x k, s.sessionOf a = some x → x.openKey ≠ [] → s.unwrapped x.openKey = some k → role ≠ 0 → role < s.roleOf a →
        role ≠ 3 → Completes (.keyLoad a v) s fun t =>
          t.rd F.SEC_KLOAD_STAT_ERR = 0 ∧ t.on F.SEC_EVT_KEY_LOADED = true
            ∧ ∀ n, Tab.get [] t.keys n = if n = 2 * role + slot then (if k.all (· == 0) then [] else k) else Tab.get [] s.keys n)
      ∧ (role = 0 ∨ role = 3 → Completes (.keyLoad a v) s fun t => t.rd F.SEC_KLOAD_STAT_ERR = 1 ∧ t.keys = s.keys))
    ∧ (v < 2 ^ 31 → s.admits a R.SEC_LC_CTRL [] = true →
      let target := v % 16
      (s.rd F.SEC_LC_CONFIRM_V = 0x4C430000 + target → s.lcPermits target = true → Completes (.lifecycleGo a v) s fun t =>
        t.sec.fuses = s.sec.fuses ||| target ∧ t.pwr.causes = s.pwr.causes ||| 8 ∧ t.rd F.SEC_LC_STAT_ERR = 0
          ∧ t.on F.TST_EVT_CLEARED = true ∧ (target = 15 → ∀ g ∈ t.boot.journal ++ t.boot.waiting, g.key = none))
      ∧ (s.lcPermits target = false → Completes (.lifecycleGo a v) s fun t =>
        t.rd F.SEC_LC_STAT_ERR = 1 ∧ t.sec = s.sec ∧ t.pwr = s.pwr))
    ∧ (v < 2 ^ 32 → v % 16 ≠ 0 → s.admits a R.SEC_PROV_REVOKE [] = true →
      (s.lifecycle = 1 → Completes (.revoke a v) s fun t =>
        t.rd F.SEC_PROV_REVOKE_KEY = s.rd F.SEC_PROV_REVOKE_KEY ||| v % 16 ∧ t.sec = s.sec)
      ∧ (s.lifecycle = 3 → Completes (.revoke a v) s fun t => t.sec.revoked = s.sec.revoked ||| v % 16))

/-- R411, R415, R416, R417: transactions of a session in its slot. BEGIN opens one, or reports its code; COMMIT hands an
open one to validation with its writes and its persistence, and ends a doomed one with its cause; ROLLBACK ends either with
12; a validation that passes makes it PENDING for two blocks later, one that does not ends it; so does the timeout, with 10.
-/
def Obligations.Transactions : Prop :=
  ∀ (s : State) (a : Access) (i : Nat), i < 8 → a.slot = i →
    let ended (t : State) (result : Nat) : Prop := t.txnState i = 0 ∧ t.rd F.TXN_STAT_RESULT [i] = result ∧ t.txnSlot i = TxnSlot.init
    let x := s.txnSlot i
    (s.admits a R.TXN_CTRL [] = true →
      (s.beginCode i = 0 → Completes (.txnBegin a) s fun t =>
        t.txnState i = 1 ∧ (t.txnSlot i).access = a ∧ (t.txnSlot i).staged = [] ∧ t.commits = s.commits)
      ∧ (s.beginCode i ≠ 0 → Completes (.txnBegin a) s fun t =>
        t.txnState i = s.txnState i ∧ t.rd F.TXN_STAT_RESULT [i] = s.beginCode i ∧ t.on F.TXN_EVT_FAIL = true))
    ∧ (s.reaches a R.TXN_CTRL [] = true → s.allows a R.TXN_CTRL [] = true → s.txnOwn a = true →
      (s.txnState i = 1 → s.on F.TXN_CTRL_PERSIST [i] = false → Completes (.txnCommit a) s fun t =>
        t.txnState i = 3 ∧ t.commits = s.commits ++ [{ slot := some i, access := x.access, writes := x.staged }])
      ∧ (s.txnState i = 2 → x.doom < 16 → Completes (.txnCommit a) s fun t => ended t x.doom ∧ t.commits = s.commits)
      ∧ (s.txnState i = 1 ∨ s.txnState i = 2 → Completes (.txnRollback a) s fun t => ended t 12 ∧ t.commits = s.commits))
    ∧ (∀ c r d, s.commits.find? (fun c => c.block.isNone) = some c → c.slot = some i → s.judgeCommit c = (r, d) → r < 16 →
      Completes .validationPass s fun t =>
        if r = 0 then t.txnState i = 4 ∧ t.rd F.TXN_CBLOCK_LO_V [i] = (s.time.block + 2) % 2 ^ 32
          ∧ t.commits = passFirst (s.time.block + 2) s.commits
        else ended t r ∧ t.commits = s.commits.erase c)
    ∧ (s.txnState i = 1 ∨ s.txnState i = 2 → s.elapsed x.last3 (s.rd F.TXN_CFG_TIMEOUT * 300000000) = true →
      Completes (.txnTimeout i) s fun t => ended t 10 ∧ t.on F.TXN_EVT_TIMEOUT = true)

/-- R424, R425, R426: the audit log. A flush covers the entries that are unflushed; a second one follows the first; its end
moves the durable entries to the flash region, the newest first, and raises FLUSH_DONE. -/
def Obligations.AuditLog : Prop :=
  ∀ (s : State),
    (s.autoFlush = true → s.log.flush = none → Completes (.logFlush none) s fun t =>
      t.log.flush = some (s.rd F.LOG_STAT_UNFLUSHED) ∧ t.on F.LOG_STAT_FLUSHING = true ∧ t.log.entries = s.log.entries)
    ∧ (∀ a, s.admits a R.LOG_CTRL [] = true → Completes (.logFlush (some a)) s fun t =>
      (s.log.flush = none → t.log.flush.isSome = true ∧ t.on F.LOG_STAT_FLUSHING = true)
        ∧ (s.log.flush.isSome = true → t.log.again = true))
    ∧ ∀ n d e, s.log.flush = some n → s.log.again = false → Completes (.flushDone d e) s fun t =>
      let k := if e = true then min d n else n
      let first := s.rd F.LOG_STAT_HEAD + 2048 - s.rd F.LOG_STAT_UNFLUSHED
      t.log.flush = none ∧ t.on F.LOG_STAT_FLUSHING = false ∧ t.on F.LOG_EVT_FLUSH_DONE = true
        ∧ t.rd F.LOG_STAT_UNFLUSHED = s.rd F.LOG_STAT_UNFLUSHED - k
        ∧ t.rd F.LOG_CNT_FLUSHED_V = (s.rd F.LOG_CNT_FLUSHED_V + k) % 2 ^ 32
        ∧ t.log.region = (((List.range k).map fun j => Tab.get [] s.log.entries ((first + j) % 2048)).reverse
            ++ s.log.region).take 16384
        ∧ (e = true → t.on F.LOG_EVT_FLASH_ERR = true)

/-! ## Hosts -/

/-- R31, R59, R84: reads that latch. A read of the low word of the block number, of a time snapshot and of a MAC counter
answers it and latches its upper part as it stands at that moment. R385, R386, R393: the forms of a host access. A PCIe
request for one whole double word and an SPI frame of one word read a register that answers, and answer its word; as writes
they are the register write of the same word. -/
def Obligations.HostReads : Prop :=
  (∀ (s : State) (a : Access) (p i : Nat), p < 2 → i < 40 →
    let answers (t : State) (v : Nat) : Prop := t.sends = (s.answered a v).sends
    let sec := s.time.epoch3 / 3 / 10 ^ 9
    let count := Tab.get 0 (s.netPort p).cnt i
    (s.reaches a R.CLK_BLOCK_LO [] = true → Completes (.clkBlockRead a) s fun t =>
      answers t (s.time.block % 2 ^ 32) ∧ t.word R.CLK_BLOCK_HI = BitVec.ofNat 32 (s.time.block / 2 ^ 32))
    ∧ (s.reaches a R.CLK_EPOCH_NS [] = true → Completes (.timeSnapshotRead a true p) s fun t =>
      answers t (s.time.epoch3 / 3 % 10 ^ 9) ∧ t.word R.CLK_EPOCH_SL = BitVec.ofNat 32 sec
        ∧ t.word R.CLK_EPOCH_SH = BitVec.ofNat 32 (sec / 2 ^ 32 % 65536))
    ∧ (s.reaches a R.PTP_TIME_NS [p] = true → Completes (.timeSnapshotRead a false p) s fun t =>
      answers t (s.now3 / 3 % 10 ^ 9) ∧ t.rd F.PTP_TIME_SL_V [p] = s.now3 / 3 / 10 ^ 9 % 2 ^ 32)
    ∧ (s.reaches a R.NP_CNTi_LO [p, i] = true → Completes (.counterRead a p i) s fun t =>
      answers t (count % 2 ^ 32) ∧ t.word R.NP_CNTi_HI [p, i] = BitVec.ofNat 32 (count / 2 ^ 32)))
  ∧
  (∀ (s : State) (slot : Nat) (r : Reg) (ix : List Nat) (v : Nat) (data : List Nat), slot < 8 → v < 2 ^ 32 →
    let addr := r.addr ix
    let read (a : Access) (i : Instr) : Prop := s.reaches a r ix = true → ∀ e k, findReg addr slot = some (e, k) →
      exec i s = .next (((s.touch a addr).latchRead e.reg k).answered a ((s.touch a addr).readBack a addr e k % 2 ^ 32)).ended
    let pcie : Access := { iface := .pcie, slot := slot }
    let spi : Access := { iface := .spi, slot := slot }
    read pcie (.pcieRequest (slot * 2 ^ 32 + addr) [15] data false) ∧ read spi (.spiFrame (16 * slot) addr data)
    ∧ (addr % 4 = 0 → addr < 2 ^ 32 →
      exec (.pcieRequest (slot * 2 ^ 32 + addr) [15] [v] true) s = exec (.registerWrite pcie addr 4 v) s
        ∧ exec (.spiFrame (128 + 16 * slot) addr [v]) s = exec (.registerWrite spi addr 4 v) s))

/-- R235, R394, R424, R443: register writes. A write that goes through puts its values into a plain register, and into a
control of the test unit; to a safe-loaded register outside a transaction it makes a commit of one write and changes nothing
yet; a write to fields above the role of the access changes nothing, is counted and raises DENIED. -/
def Obligations.HostWrites : Prop :=
  ∀ (s : State) (a : Access) (r : Reg) (ix : List Nat) (e : RegEntry) (v : Nat),
    v < 2 ^ 32 → findReg (r.addr ix) a.slot = some (e, ix) → e.reg = r →
    let through := s.admits a r ix = true ∧ s.txnOwn a = false ∧ s.unblocked r ix = true
    (r ∈ [R.SYS_WAKE, R.SYS_THERM, R.TXN_CFG, R.LOG_CFG, R.FAB_HOSTBASE_LO, R.FAB_HOSTBASE_HI, R.IRQ_PIN_EN, R.IRQ_MSI_EN,
      R.OSP_TIMERS] → through → Completes (.registerWrite a (r.addr ix) 4 v) s fun t =>
        t.holds r ix e v ∧ s.sameWords t (r.key ix :: logWords))
    ∧ (r ∈ tstControls → through → Completes (.tstWrite a (r.addr ix) v) s fun t =>
        t.holds r ix e v ∧ s.sameWords t (r.key ix :: logWords))
    ∧ (e.safe = true → e.fields ≠ [] → through → s.journalUsed < 4096 → Completes (.safeLoadWrite a (r.addr ix) v) s fun t =>
      t.commits = s.commits ++ [{ slot := none, access := a, writes := [(r.addr ix, v)], one := true }]
        ∧ s.sameWords t logWords)
    ∧ (s.reaches a r ix = true → s.alone a = true →
      (s.touch a (r.addr ix)).denies a e (changedFields e ((s.touch a (r.addr ix)).readBack a (r.addr ix) e ix) v) = true →
      Completes (.registerWrite a (r.addr ix) 4 v) s fun t =>
        t.rd F.FAB_CNT_DENIED_V = (s.rd F.FAB_CNT_DENIED_V + 1) % 2 ^ 32 ∧ t.on F.FAB_EVT_DENIED = true
          ∧ s.sameWords t (R.FAB_CNT_DENIED.key [] :: R.FAB_EVT.key [] :: logWords))

/-- R391, R408: masters that are reset. A frame that is broken off and a link reset make the master's port drain and forget
what waits; with the link the sessions of PCIe close, and no other; the drain ends. R388, R399: the DMA engines. GO of an
idle engine starts the copy that its registers describe; of a busy one it leaves error 14. ABORT ends the job with error 15,
and the engine's port drains. A copy between ranges of DRAM that do not meet ends with the source's bytes at the
destination, every other byte as before, and DMA_DONE. -/
def Obligations.HostMasters : Prop :=
  (∀ (s : State),
    (s.pwr.off = false →
      Completes .spiAbort s (fun t => 1 ∈ t.fab.drains ∧ (∀ w ∈ t.fab.waiting, w.2.access.iface ≠ .spi) ∧ t.sec = s.sec)
      ∧ Completes .pcieLinkReset s fun t => 0 ∈ t.fab.drains ∧ (∀ w ∈ t.fab.waiting, w.2.access.iface ≠ .pcie)
        ∧ ∀ i x, i < 8 → s.sec.ses.lookup i = some x →
          if x.iface = .pcie then t.sec.ses.lookup i = none ∧ t.secState i = 0 else t.sec.ses.lookup i = some x)
    ∧ ∀ m, s.fab.drains.contains m = true → s.fab.waiting = [] → s.fab.cut = [] → Completes (.drainEnd m) s fun t =>
      t.fab.drains = s.fab.drains.filter (· != m) ∧ s.sameWords t [] ∧ s.sameMemory t)
  ∧
  (∀ (s : State) (d : Nat), d < 8 →
    (∀ a, s.admits a R.FAB_DMAd_CTRL [d] = true →
      (s.on F.FAB_DMAd_STAT_BUSY [d] = false → Completes (.dmaGo a d) s fun t =>
        t.fab.dma.lookup d = some (s.dmaJob a d) ∧ t.on F.FAB_DMAd_STAT_BUSY [d] = true
          ∧ t.rd F.FAB_DMAd_STAT_ERR [d] = 0 ∧ s.sameMemory t)
      ∧ (s.on F.FAB_DMAd_STAT_BUSY [d] = true → Completes (.dmaGo a d) s fun t =>
        t.fab.dma = s.fab.dma ∧ t.rd F.FAB_DMAd_STAT_ERR [d] = 14)
      ∧ (∀ j, s.fab.dma.lookup d = some j → Completes (.dmaAbort a d) s fun t =>
        t.fab.dma.lookup d = none ∧ t.on F.FAB_DMAd_STAT_BUSY [d] = false ∧ t.rd F.FAB_DMAd_STAT_ERR [d] = 15
          ∧ t.rd F.FAB_EVT_DMA_ERR = s.rd F.FAB_EVT_DMA_ERR ||| 2 ^ d ∧ 4 + d ∈ t.fab.drains))
    ∧ ∀ j src dst, s.fab.dma.lookup d = some j → s.fab.drains.contains (4 + d) = false → s.awake = true →
      j.src = dramBase + src → j.dst = dramBase + dst → src + 4 * j.words ≤ s.dramBytes → dst + 4 * j.words ≤ s.dramBytes →
      dramBase + s.dramBytes ≤ hostBase → src + 4 * j.words ≤ dst ∨ dst + 4 * j.words ≤ src →
      Completes (.dmaDone d) s fun t =>
        (∀ x, Memory.read dramBlank t.dram x = if dst ≤ x ∧ x < dst + 4 * j.words then Memory.read dramBlank s.dram (src + (x - dst))
          else Memory.read dramBlank s.dram x)
          ∧ t.fab.dma.lookup d = none ∧ t.on F.FAB_DMAd_STAT_BUSY [d] = false ∧ t.rd F.FAB_DMAd_STAT_ERR [d] = 0
          ∧ t.rd F.FAB_EVT_DMA_DONE = s.rd F.FAB_EVT_DMA_DONE ||| 2 ^ d)

/-- R57, R61, R65, R73, R398, R401: controls that hosts write. A new MODE restarts a PTP port; REACQ lets local time be set
anew; POP takes the oldest transmit stamp; TAIL takes its value; clearing TX_EN flushes the queue, whose HEAD becomes its
TAIL, and resets its engine; an end of interrupt signals again what is still set. -/
def Obligations.HostUnitControls : Prop :=
  ∀ (s : State) (a : Access) (p : Nat) (v : Nat), p < 2 → v < 2 ^ 32 →
    (s.admits a R.PTP_CTRL [p] = true → s.txnOwn a = false → s.unblocked R.PTP_CTRL [p] = true → v % 4 ≠ 3 →
      v % 4 ≠ s.rd F.PTP_CTRL_MODE [p] → Completes (.ptpCtrlWrite a p v) s fun t =>
        t.rd F.PTP_CTRL_MODE [p] = v % 4 ∧ t.on F.PTP_STAT_TIME_VALID [p] = false
          ∧ t.portState p = if v % 4 = 0 then 3 else if s.linkUp p = true then 1 else 2)
    ∧ (s.admits a R.PTP_REACQ [p] = true → Completes (.ptpReacq a p) s fun t =>
      t.time.timeSet = false ∧ t.time.local3 = s.time.local3 ∧ ∀ q, q < 2 → (t.ptpPort q).stepPend = false)
    ∧ (s.admits a R.PTP_TXTS_POP [p] = true → Completes (.txtsPop a p) s fun t =>
      (t.ptpPort p).txts = (s.ptpPort p).txts.tail ∧ s.sameWords t logWords)
    ∧ (∀ ring, ring < 8 → s.admits a R.NP_HRr_TAIL [p, ring] = true → s.txnOwn a = false →
      s.unblocked R.NP_HRr_TAIL [p, ring] = true → Completes (.tailWrite a p ring v) s fun t =>
        t.ringTail p ring = v % 4096 ∧ t.ringHead p ring = s.ringHead p ring)
    ∧ (∀ q, q < 4 → s.admits a R.NP_HQ_VLANq [p, q] = true → s.txnOwn a = false → s.unblocked R.NP_HQ_VLANq [p, q] = true →
      s.on F.NP_HQ_VLANq_TX_EN [p, q] = true → Completes (.flushed a p q) s fun t =>
        t.on F.NP_HQ_VLANq_TX_EN [p, q] = false ∧ t.rd F.NP_HQ_VLANq_VID [p, q] = s.rd F.NP_HQ_VLANq_VID [p, q]
          ∧ Tab.get [] (t.netPort p).fly q = [] ∧ t.ringHead p q = s.ringTail p q ∧ queueMaster p ∈ t.fab.drains)
    ∧ (s.admits a R.IRQ_EOI [] = true → exec (.irqEoi a v) s = .next (s.does a R.IRQ_EOI [] v fun u => u.irqEoi v))

/-- R280, R281, R282: hosts at the cores. DOORBELL sets the core's pending bit. A program word of a halted core is written;
that of any other stays, and PGM_BUSY is raised. S and K memory are read and written; a running core loses an issue slot
where no cycle is free. -/
def Obligations.HostCores : Prop :=
  ∀ (s : State) (a : Access) (c : Nat), c < 32 →
    let there (addr : Nat) (w : Window) : Prop := s.pwr.off = false ∧ s.fab.drains.contains (Access.master a) = false
      ∧ s.answers addr = true ∧ s.windowThere w 4 = true ∧ s.roleOf a ≠ 0 ∧ s.alone a = true
    (s.admits a R.LDCc_DOORBELL [c] = true → Completes (.doorbell a c) s fun t =>
      t.rd F.LDCc_IRQ_PEND_DOORBELL [c] = 1 ∧ s.sameWords t (R.LDCc_IRQ_PEND.key [c] :: logWords))
    ∧ (∀ w v, w < 16384 → v < 2 ^ 32 → there (coreWindow c + 4 * w) (.core c 0 (4 * w)) →
      (s.luvState c = 0 → Tab.get 0 (s.luv c).prog w < 2 ^ 32 → Completes (.programWrite a c w v) s fun t =>
        ∀ k, Tab.get 0 (t.luv c).prog k = if k = w then v else Tab.get 0 (s.luv c).prog k)
      ∧ (s.luvState c ≠ 0 → Completes (.programWrite a c w v) s fun t =>
        t.luv c = s.luv c ∧ t.on F.LDCc_EVT_PGM_BUSY [c] = true))
    ∧ ∀ (off : Nat) (free : Bool), off % 4 = 0 → 0x20000 ≤ off → off < 0x60000 →
      let mem := if off < 0x40000 then 1 else 2
      let k := off % 0x20000 / 4
      let old := (s.luv c).memWord mem k
      let issued := if free = false ∧ s.luvRuns c = true then (s.luv c).issued + 1 else (s.luv c).issued
      there (coreWindow c + off) (.core c mem (off % 0x20000)) → old < 2 ^ 32 →
      (Completes (.coreMemoryAccess a c off none free) s fun t =>
        t.sends = (s.answered a old).sends ∧ (t.luv c).issued = issued)
      ∧ ∀ v, v < 2 ^ 32 → Completes (.coreMemoryAccess a c off (some v) free) s fun t =>
        (t.luv c).memWord mem k = v ∧ (t.luv c).issued = issued ∧ (t.luv c).prog = (s.luv c).prog

end
end

