-- ==== Sys2Proof/Laws/Validation.lean ====
section
/-!
SUPPORT. Laws of the validation (R415): a list of rules finds nothing broken where each part of it does, and a commit that
breaks no rule passes.
-/

namespace Sys2Proof.Machine

/-- A list of rules finds nothing broken. -/
def Broken.clean (l : Broken) : Bool := l.all fun e => !e.1

@[simp] theorem Broken.clean_append (a b : Broken) : Broken.clean (a ++ b) = (Broken.clean a && Broken.clean b) := List.all_append

theorem Broken.first_of_clean {l : Broken} (h : Broken.clean l = true) : Broken.first l = none := by
  simp only [Broken.clean, List.all_eq_true, Bool.not_eq_true'] at h
  simp only [Broken.first, Option.map_eq_none_iff, List.find?_eq_none]
  intro e he
  simp [h e he]

/-- A commit that breaks no rule passes. -/
theorem State.judgeCommit_passes {s s0 s1 : State} {c : Commit} {pend : List Commit} {steps : List PendStep}
    (hp : s.commits.filter (fun d => d.block.isSome) = pend) (h0 : s.withWrites (pend.flatMap (·.writes)) = s0)
    (h1 : s0.withWrites c.writes = s1) (hm : s.mirrored = false) (hc : c.persist = false)
    (hs : s.pendSteps pend = steps)
    (hr : Broken.clean (State.configRules s s0 s1 false
      (steps ++ [{ block := s.time.block + 2, before := s0, after := s1, addrs := c.writes.map (·.1) }]) (s.time.block + 2)) = true)
    (hf : Broken.clean (State.fadeRules s s0 s1 (c.writes.map (·.1)) steps (s.time.block + 2)
      ++ s.targetRules steps (c.writes.map (·.1)) (s.time.block + 2) ++ s1.rangeRules c.writes) = true) :
    s.judgeCommit c = (0, 0) := by
  subst hp h0 h1 hs
  unfold State.judgeCommit
  simp only [hm, hc, Bool.false_and, Bool.false_eq_true, if_false]
  rw [Broken.first_of_clean]
  simp only [Broken.clean_append, Bool.and_eq_true] at hf ⊢
  exact ⟨⟨⟨hr, hf.1.1⟩, hf.1.2⟩, hf.2⟩

end Sys2Proof.Machine
end

