-- ==== Sys2Proof/Laws/Boot.lean ====
section
/-!
SUPPORT. Laws of the boot: what a slot's signature depends on, and a slot that passes every check.
-/

namespace Sys2Proof.Machine

/-! ## Signatures (R366) -/

/-- Whether a slot's signature passes depends on the flash alone. -/
theorem State.slotSigOk_congr {s t : State} (hf : t.flash = s.flash) (hb : t.boot.flashBytes = s.boot.flashBytes) (k : Nat) :
    t.slotSigOk k = s.slotSigOk k := by
  simp only [State.slotSigOk, State.slotDigest, State.slotSections, State.slotField, State.slotBase, State.slotSize,
    State.flashRead, hf, hb]

/-! ## One slot (R374) -/

/-- A slot of one section starts where every check passes, its section loads without keys, no group of the journal is its own,
and the configuration is in order. -/
theorem State.trySlot_starts {s : State} {k : Nat} {l : Loading}
    (hh : s.headerBad k = false) (hk : s.slotKeyOk k = true) (hs : s.slotSigOk k = true)
    (hr : ¬ s.slotField k 20 2 < s.sec.rollback) (hn : s.slotSections k = 1)
    (ht : tableBad (s.slotField k 28 4) [s.section k 0] 0 304 = none)
    (hb : s.boot.badRead = none) (hy : (s.section k 0).invalid = false)
    (hc : capsMet (s.slotField k 8 4) (partCaps s.part) = true)
    (hd : (s.rd F.SYS_DRAMSIZE_MIB == 0 || decide (s.rd F.SYS_DRAMSIZE_MIB < s.slotField k 12 2)) = false)
    (hl : Loading.sections { s := s } k [(0, s.section k 0)] = .ok l)
    (hu : l.keys = []) (hj : s.boot.journal = [])
    (hv : let t := State.takeSettings l.s true (l.writes.map (·.1)) l.s
      Broken.clean (State.configRules t t t true [] 0 ++ t.rangeRules l.writes) = true) :
    ∃ t, s.trySlot k = .ok t := by
  have hg : l.judged.isSome = true := by
    unfold Loading.judged
    simp only [Broken.first_of_clean hv, Option.isSome_none, Bool.false_eq_true, if_false, Option.isSome_some]
  obtain ⟨v, hv'⟩ := Option.isSome_iff_exists.mp hg
  have hw : l.unwrapKeys s.deviceKey v = .ok v := by simp [Loading.unwrapKeys, hu]
  have hm : (List.range 1).map (fun i => s.section k i) = [s.section k 0] := rfl
  have hq : (none == some (k, 255)) = false := rfl
  refine ⟨v.enginesStart k, ?_⟩
  unfold State.trySlot
  simp only [hb, hn, hm, hh, hk, hs, hr, ht, hc, hd, hj, Bool.false_eq_true, if_false, Bool.not_true, Nat.mul_one, Nat.reduceAdd,
    List.findIdx?_cons, List.findIdx?_nil, hy, List.zipIdx_cons, List.zipIdx_nil, List.map_cons, List.map_nil, hl, hw,
    List.filter_nil, Loading.replay, hv', State.journalKeys, List.foldl_nil, Option.map_none, hq]

end Sys2Proof.Machine
end

