-- ==== Sys2Proof/Laws/Crypto.lean ====
section
/-!
SUPPORT. Laws of the published algorithms: an ECDSA check from the two multiples that it adds, and the steps of a key unwrap
taken in parts.
-/

namespace Sys2Proof.Machine

/-- The primes that number the constants of SHA-256: the first 64. -/
def shaPrimes : List Nat :=
  (List.range 312).filter fun p => 2 ≤ p ∧ ((List.range 18).all fun d => d < 2 || p ≤ d || p % d != 0)

/-- Whole part and first 32 bits of the fraction of the `n`-th root of a prime, where `lead` is the whole part. -/
def rootBits (n p lead word : Nat) : Bool :=
  (lead * 2 ^ 32 + word) ^ n ≤ p * 2 ^ (32 * n) && decide (p * 2 ^ (32 * n) < (lead * 2 ^ 32 + word + 1) ^ n)

/-- FIPS 180-4: the round constants are the cube roots of the first 64 primes. -/
theorem shaRoots_cube : (shaPrimes.zip (shaRoots.flatMap rowWords)).all
    (fun x => (List.range 7).any fun a => rootBits 3 x.1 a x.2) = true := by decide +kernel

/-- FIPS 180-4: the first hash value is the square roots of the first eight primes. -/
theorem shaStart_square : (shaPrimes.zip (rowWords shaStart)).all
    (fun x => (List.range 5).any fun a => rootBits 2 x.1 a x.2) = true := by decide +kernel

/-- A signature passes where the two multiples of its check are known and add up to its `r`. -/
theorem ecdsaVerify_of {x y r s z : Nat} {digest : List Byte} {p q : EcPoint}
    (hr : (decide (r = 0 ∨ s = 0 ∨ p256N ≤ r ∨ p256N ≤ s) || !onCurve x y) = false) (hz : ofBe digest = z)
    (hp : ecMul 256 (z * invMod p256N s % p256N) (some p256G) = p)
    (hq : ecMul 256 (r * invMod p256N s % p256N) (some (x, y)) = q)
    (hx : (ecAdd p q).map (fun c => c.1 % p256N) = some r) : ecdsaVerify x y digest r s = true := by
  simp only [Bool.or_eq_false_iff, decide_eq_false_iff_not, Bool.not_eq_false'] at hr
  obtain ⟨h, hc⟩ := hr
  unfold ecdsaVerify
  rw [if_neg (by simpa [hc] using h)]
  simp only [hz, hp, hq]
  cases hpq : ecAdd p q with
  | none => simp [hpq] at hx
  | some c => simpa [hpq] using hx

/-- The steps `t + n` down to `t + 1` of a key unwrap. -/
def unwrapUpper (key : List Nat) (t : Nat) : Nat → List Nat → List (List Nat) → List Nat × List (List Nat)
  | 0, a, r => (a, r)
  | n + 1, a, r =>
    let tb := (beBytes 8 (t + n + 1)).map (·.toNat)
    let d := aesDecrypt key (List.zipWith Nat.xor a tb ++ r.getLastD [])
    unwrapUpper key t n (d.take 8) (d.drop 8 :: r.dropLast)

theorem unwrapSteps_add (key : List Nat) (t n : Nat) (a : List Nat) (r : List (List Nat)) :
    unwrapSteps key (t + n) a r = unwrapSteps key t (unwrapUpper key t n a r).1 (unwrapUpper key t n a r).2 := by
  induction n generalizing a r with
  | zero => rfl
  | succ n ih => exact ih _ _

end Sys2Proof.Machine
end

