-- ==== Sys2Proof/Laws/Tables.lean ====
section
/-!
SUPPORT. Laws of tables and byte memories: reading after writing, writes elsewhere, and the canonical form.
-/

namespace Sys2Proof.Machine

variable {α : Type}

/-! ## Reading after writing -/

theorem Tab.get_put_none (d : α) (m : Tab α) (k j : Nat) :
    Tab.get d (Tab.put m k none) j = if j = k then d else Tab.get d m j := by
  induction m with
  | nil => simp [Tab.put, Tab.get]
  | cons e t ih =>
    obtain ⟨a, x⟩ := e
    simp only [Tab.put]
    split
    · next h => subst h; rw [ih]; simp only [Tab.get]; grind
    · next h => simp only [Tab.get, ih]; grind

theorem Tab.get_put_some (d : α) (m : Tab α) (k j : Nat) (v : α) :
    Tab.get d (Tab.put m k (some v)) j = if j = k then v else Tab.get d m j := by
  induction m with
  | nil => simp [Tab.put, Tab.get, eq_comm]
  | cons e t ih =>
    obtain ⟨a, x⟩ := e
    simp only [Tab.put]
    split
    · simp [Tab.get, eq_comm]
    · split
      · next h => subst h; simp only [Tab.get]; grind
      · next h1 h2 => simp only [Tab.get, ih]; grind

/-- What a table reads after a write. -/
theorem Tab.get_set [DecidableEq α] (d : α) (m : Tab α) (k j : Nat) (v : α) :
    Tab.get d (Tab.set d m k v) j = if j = k then v else Tab.get d m j := by
  unfold Tab.set
  by_cases h : v = d
  · subst h; simp [Tab.get_put_none]
  · simp [h, Tab.get_put_some]

theorem Tab.get_set_same [DecidableEq α] (d : α) (m : Tab α) (k : Nat) (v : α) :
    Tab.get d (Tab.set d m k v) k = v := by simp [Tab.get_set]

theorem Tab.get_set_other [DecidableEq α] (d : α) (m : Tab α) (k j : Nat) (v : α) (h : j ≠ k) :
    Tab.get d (Tab.set d m k v) j = Tab.get d m j := by simp [Tab.get_set, h]

/-- A write seen through another unlisted value. -/
theorem Tab.get_set_far [DecidableEq α] (d c : α) (m : Tab α) (k j : Nat) (v : α) (h : j ≠ k) :
    Tab.get c (Tab.set d m k v) j = Tab.get c m j := by
  unfold Tab.set
  split <;> simp [Tab.get_put_none, Tab.get_put_some, h]

/-! ## The canonical form -/

/-- Every number of a table lies above `k`. -/
def Tab.above (k : Nat) (m : Tab α) : Prop := ∀ e ∈ m, k < e.1

theorem Tab.rising_cons (a : Nat) (x : α) (t : Tab α) :
    Tab.rising ((a, x) :: t) = true ↔ Tab.above a t ∧ Tab.rising t = true := by
  induction t generalizing a x with
  | nil => simp [Tab.rising, Tab.above]
  | cons e t ih =>
    obtain ⟨b, y⟩ := e
    have hb := ih b y
    constructor
    · intro h
      simp only [Tab.rising, Bool.and_eq_true, decide_eq_true_eq] at h
      refine ⟨?_, by simpa [Tab.rising] using h.2⟩
      have h2 : Tab.above b t := (hb.mp (by simpa [Tab.rising] using h.2)).1
      intro e he
      rcases List.mem_cons.mp he with rfl | he
      · exact h.1
      · exact Nat.lt_trans h.1 (h2 e he)
    · rintro ⟨h1, h2⟩
      have := h1 (b, y) (by simp)
      simp only [Tab.rising, Bool.and_eq_true, decide_eq_true_eq]
      exact ⟨this, by simpa [Tab.rising] using h2⟩

theorem Tab.mem_put {m : Tab α} {k : Nat} {o : Option α} {e : Nat × α} (h : e ∈ Tab.put m k o) :
    e ∈ m ∨ (e.1 = k ∧ o = some e.2) := by
  induction m with
  | nil => cases o <;> simp_all [Tab.put]
  | cons c t ih =>
    obtain ⟨a, x⟩ := c
    cases o with
    | none =>
      simp only [Tab.put] at h
      split at h
      · rcases ih h with h | h <;> simp_all
      · rcases List.mem_cons.mp h with h | h
        · simp [h]
        · rcases ih h with h | h <;> simp_all
    | some v =>
      simp only [Tab.put] at h
      split at h
      · rcases List.mem_cons.mp h with h | h
        · right; simp [h]
        · left; exact h
      · split at h
        · rcases List.mem_cons.mp h with h | h
          · right; simp [h]
          · left; simp [h]
        · rcases List.mem_cons.mp h with h | h
          · left; simp [h]
          · rcases ih h with h | h <;> simp_all

/-- Writing, replacing and removing keep the numbers rising. -/
theorem Tab.rising_put (m : Tab α) (k : Nat) (o : Option α) (h : Tab.rising m = true) :
    Tab.rising (Tab.put m k o) = true := by
  induction m with
  | nil => cases o <;> simp [Tab.put, Tab.rising]
  | cons c t ih =>
    obtain ⟨a, x⟩ := c
    have ⟨hab, hr⟩ := (Tab.rising_cons a x t).mp h
    cases o with
    | none =>
      simp only [Tab.put]
      split
      · exact ih hr
      · refine (Tab.rising_cons _ _ _).mpr ⟨fun e he => ?_, ih hr⟩
        rcases Tab.mem_put he with he | he
        · exact hab e he
        · simp at he
    | some v =>
      simp only [Tab.put]
      split
      · next hk =>
        refine (Tab.rising_cons _ _ _).mpr ⟨fun e he => ?_, h⟩
        rcases List.mem_cons.mp he with rfl | he
        · exact hk
        · exact Nat.lt_trans hk (hab e he)
      · split
        · next hk => subst hk; exact (Tab.rising_cons _ _ _).mpr ⟨hab, hr⟩
        · next h1 h2 =>
          refine (Tab.rising_cons _ _ _).mpr ⟨fun e he => ?_, ih hr⟩
          rcases Tab.mem_put he with he | he
          · exact hab e he
          · omega

/-- A write keeps a table in canonical form. -/
theorem Tab.wf_set [DecidableEq α] (d : α) (m : Tab α) (k : Nat) (v : α) (h : Tab.wf d m = true) :
    Tab.wf d (Tab.set d m k v) = true := by
  simp only [Tab.wf, Bool.and_eq_true, List.all_eq_true, Bool.not_eq_true', decide_eq_false_iff_not] at *
  refine ⟨Tab.rising_put _ _ _ h.1, fun e he => ?_⟩
  rcases Tab.mem_put he with he | ⟨_, he⟩
  · exact h.2 e he
  · split at he
    · simp at he
    · next hv => intro hd; simp_all

/-! ## Byte memories -/

theorem Memory.read_write (d : Byte) (m : List Host.Cell) (a b : Nat) (v : Byte) :
    Memory.read d (Memory.write d m a v) b = if b = a then v else Memory.read d m b := Tab.get_set d m a b v

theorem Memory.wf_write (d : Byte) (m : List Host.Cell) (a : Nat) (v : Byte) (h : Memory.wf d m = true) :
    Memory.wf d (Memory.write d m a v) = true := Tab.wf_set d m a v h

theorem Memory.wf_writeBytes (d : Byte) (m : List Host.Cell) (a : Nat) (bs : List Byte) (h : Memory.wf d m = true) :
    Memory.wf d (Memory.writeBytes d m a bs) = true := by
  induction bs generalizing m a with
  | nil => exact h
  | cons b bs ih => exact ih _ _ (Memory.wf_write d m a b h)

/-- Bytes outside the range that was written read as before. -/
theorem Memory.read_writeBytes_outside (d : Byte) (m : List Host.Cell) (a : Nat) (bs : List Byte) (b : Nat)
    (h : b < a ∨ a + bs.length ≤ b) : Memory.read d (Memory.writeBytes d m a bs) b = Memory.read d m b := by
  induction bs generalizing m a with
  | nil => rfl
  | cons c bs ih =>
    simp only [Memory.writeBytes, List.length_cons] at *
    rw [ih _ _ (by omega), Memory.read_write, if_neg (by omega)]

/-- A byte inside the range reads what was written there. -/
theorem Memory.read_writeBytes_inside (d : Byte) (m : List Host.Cell) (a : Nat) (bs : List Byte) (i : Nat)
    (h : i < bs.length) : Memory.read d (Memory.writeBytes d m a bs) (a + i) = bs[i] := by
  induction bs generalizing m a i with
  | nil => simp at h
  | cons c bs ih =>
    simp only [Memory.writeBytes]
    cases i with
    | zero => rw [Memory.read_writeBytes_outside _ _ _ _ _ (by omega)]; simp [Memory.read_write]
    | succ i =>
      have := ih (Memory.write d m a c) (a + 1) i (by simpa using h)
      simpa [Nat.add_assoc, Nat.add_comm 1 i] using this

theorem State.dramWrite_wf (s : State) (off : Nat) (bs : List Byte) (h : Memory.wf dramBlank s.dram = true) :
    Memory.wf dramBlank (s.dramWrite off bs).dram = true := Memory.wf_writeBytes _ _ _ _ h

theorem State.flashWrite_wf (s : State) (off : Nat) (bs : List Byte) (h : Memory.wf flashBlank s.flash = true) :
    Memory.wf flashBlank (s.flashWrite off bs).flash = true := Memory.wf_writeBytes _ _ _ _ h

/-- The memories of the reset state are in canonical form. -/
theorem State.reset_memories_wf : Memory.wf dramBlank State.reset.dram = true ∧
    Memory.wf flashBlank State.reset.flash = true ∧ Memory.wf 0 State.reset.cells = true := by decide

end Sys2Proof.Machine
end

