-- ==== Sys2Proof/Laws/Fields.lean ====
section
/-!
SUPPORT. Laws of registers and fields: what a field reads after a write to it, to another field of its word, and to
another register.
-/

namespace Sys2Proof.Machine

/-! ## Fields of a word -/

/-- The field lies inside a 32-bit word. -/
def Field.fits (f : Field) : Bool := decide (f.lo ≤ f.hi) && decide (f.hi < 32)

/-- Two fields of one word share no bit. -/
def Field.apart (f g : Field) : Bool := decide (f.hi < g.lo) || decide (g.hi < f.lo)

theorem bits_split (x l w : Nat) :
    ∃ a b c, x = (a * 2 ^ w + b) * 2 ^ l + c ∧ b < 2 ^ w ∧ c < 2 ^ l ∧ x / 2 ^ l % 2 ^ w = b := by
  refine ⟨x / 2 ^ l / 2 ^ w, x / 2 ^ l % 2 ^ w, x % 2 ^ l, ?_, Nat.mod_lt _ (by positivity), Nat.mod_lt _ (by positivity), rfl⟩
  rw [Nat.div_add_mod', Nat.div_add_mod']

theorem bits_replace (l w a b c v : Nat) :
    (a * 2 ^ w + b) * 2 ^ l + c - b * 2 ^ l + v * 2 ^ l = (a * 2 ^ w + v) * 2 ^ l + c := by
  have : (a * 2 ^ w + b) * 2 ^ l + c = a * 2 ^ w * 2 ^ l + c + b * 2 ^ l := by ring
  rw [this, Nat.add_sub_cancel]; ring

theorem bits_high (l w a b c : Nat) (hb : b < 2 ^ w) (hc : c < 2 ^ l) :
    ((a * 2 ^ w + b) * 2 ^ l + c) / 2 ^ (l + w) = a := by
  rw [Nat.pow_add, ← Nat.div_div_eq_div_mul, Nat.mul_comm _ (2 ^ l), Nat.mul_add_div (by positivity),
    Nat.div_eq_of_lt hc, Nat.add_zero, Nat.mul_comm a, Nat.mul_add_div (by positivity), Nat.div_eq_of_lt hb, Nat.add_zero]

theorem bits_mid (l w a b c : Nat) (hb : b < 2 ^ w) (hc : c < 2 ^ l) :
    ((a * 2 ^ w + b) * 2 ^ l + c) / 2 ^ l % 2 ^ w = b := by
  rw [Nat.mul_comm _ (2 ^ l), Nat.mul_add_div (by positivity), Nat.div_eq_of_lt hc, Nat.add_zero, Nat.mul_comm a,
    Nat.mul_add_mod, Nat.mod_eq_of_lt hb]

/-- The number of a word with one field replaced. -/
theorem Field.into_toNat (f : Field) (hf : f.fits = true) (w : Word) (v : Nat) :
    (f.into w v).toNat = w.toNat - f.of w * 2 ^ f.lo + v % 2 ^ f.width * 2 ^ f.lo := by
  simp only [Field.fits, Bool.and_eq_true, decide_eq_true_eq] at hf
  obtain ⟨a, b, c, hx, hb, hc, ho⟩ := bits_split w.toNat f.lo f.width
  have hw : f.lo + f.width ≤ 32 := by unfold Field.width; omega
  have hv := Nat.mod_lt v (show 0 < 2 ^ f.width by positivity)
  have ha : w.toNat / 2 ^ (f.lo + f.width) = a := by rw [hx]; exact bits_high _ _ _ _ _ hb hc
  have hlt := w.isLt
  have ha' : a < 2 ^ (32 - (f.lo + f.width)) := by
    rw [← ha]
    apply Nat.div_lt_of_lt_mul
    rwa [← Nat.pow_add, Nat.add_sub_cancel' hw]
  unfold Field.into
  rw [BitVec.toNat_ofNat]
  apply Nat.mod_eq_of_lt
  have hof : f.of w = b := ho
  rw [hof, hx, bits_replace]
  have h1 : a * 2 ^ f.width + v % 2 ^ f.width < 2 ^ (32 - f.lo) := by
    have e : 2 ^ (32 - f.lo) = 2 ^ (32 - (f.lo + f.width)) * 2 ^ f.width := by
      rw [← Nat.pow_add]; congr 1; omega
    rw [e]; nlinarith
  have e2 : 2 ^ 32 = 2 ^ (32 - f.lo) * 2 ^ f.lo := by
    rw [← Nat.pow_add]; congr 1; omega
  rw [e2]; nlinarith

/-- A field reads what was put into it, cut to its width. -/
theorem Field.of_into (f : Field) (hf : f.fits = true) (w : Word) (v : Nat) :
    f.of (f.into w v) = v % 2 ^ f.width := by
  unfold Field.of
  rw [Field.into_toNat f hf]
  obtain ⟨a, b, c, hx, hb, hc, ho⟩ := bits_split w.toNat f.lo f.width
  have hof : f.of w = b := ho
  rw [hof, hx, bits_replace]
  exact bits_mid _ _ _ _ _ (Nat.mod_lt v (by positivity)) hc

/-- A field apart from the one that was written reads as before. -/
theorem Field.of_into_apart (f g : Field) (hg : g.fits = true) (h : f.apart g = true) (hf : f.lo ≤ f.hi)
    (w : Word) (v : Nat) : f.of (g.into w v) = f.of w := by
  unfold Field.of
  rw [Field.into_toNat g hg]
  simp only [Field.fits, Bool.and_eq_true, decide_eq_true_eq] at hg
  obtain ⟨a, b, c, hx, hb, hc, ho⟩ := bits_split w.toNat g.lo g.width
  have hof : g.of w = b := ho
  have hv := Nat.mod_lt v (show 0 < 2 ^ g.width by positivity)
  rw [hof, hx, bits_replace]
  simp only [Field.apart, Bool.or_eq_true, decide_eq_true_eq] at h
  rcases h with h | h
  · -- f lies below g
    have hw : f.lo + f.width ≤ g.lo := by unfold Field.width; omega
    have key : ∀ y : Nat, (y * 2 ^ g.lo + c) / 2 ^ f.lo % 2 ^ f.width = c / 2 ^ f.lo % 2 ^ f.width := by
      intro y
      have e : y * 2 ^ g.lo + c = (y * 2 ^ (g.lo - (f.lo + f.width)) * 2 ^ f.width) * 2 ^ f.lo + c := by
        have : 2 ^ g.lo = 2 ^ (g.lo - (f.lo + f.width)) * 2 ^ f.width * 2 ^ f.lo := by
          rw [← Nat.pow_add, ← Nat.pow_add]; congr 1; omega
        rw [this]; ring
      rw [e, Nat.add_comm, Nat.add_mul_div_right _ _ (by positivity), Nat.add_mul_mod_self_right]
    rw [key, key]
  · -- f lies above g
    have hw : g.lo + g.width ≤ f.lo := by unfold Field.width; omega
    have e : f.lo = (g.lo + g.width) + (f.lo - (g.lo + g.width)) := by omega
    rw [e, Nat.pow_add, ← Nat.div_div_eq_div_mul, ← Nat.div_div_eq_div_mul, bits_high _ _ _ _ _ hb hc,
      bits_high _ _ _ _ _ hv hc]

/-! ## Registers -/

@[simp] theorem State.word_setWord_same (s : State) (r : Reg) (v : Word) (ix : List Nat) :
    (s.setWord r v ix).word r ix = v := by simp [State.word, State.setWord, Tab.get_set]

theorem State.word_setWord_other (s : State) (r q : Reg) (v : Word) (ix jx : List Nat) (h : q.key jx ≠ r.key ix) :
    (s.setWord r v ix).word q jx = s.word q jx := by simp [State.word, State.setWord, Tab.get_set_far, h]

/-- A field reads what was written to it. -/
theorem State.rd_wr (s : State) (f : Field) (v : Nat) (ix : List Nat) (hf : f.fits = true) :
    (s.wr f v ix).rd f ix = v % 2 ^ f.width := by
  simp [State.rd, State.wr, Field.of_into f hf]

/-- Another field of the same word reads as before. -/
theorem State.rd_wr_apart (s : State) (f g : Field) (v : Nat) (ix : List Nat) (hg : g.fits = true)
    (hr : f.reg = g.reg) (h : f.apart g = true) (hf : f.lo ≤ f.hi) : (s.wr g v ix).rd f ix = s.rd f ix := by
  simp [State.rd, State.wr, hr, Field.of_into_apart f g hg h hf]

/-- A field of another register, or of another copy, reads as before. -/
theorem State.rd_wr_other (s : State) (f g : Field) (v : Nat) (ix jx : List Nat) (h : f.reg.key ix ≠ g.reg.key jx) :
    (s.wr g v jx).rd f ix = s.rd f ix := by
  simp [State.rd, State.wr, State.word_setWord_other _ _ _ _ _ _ h]

/-- A word of another register reads as before. -/
theorem State.word_wr_other (s : State) (g : Field) (r : Reg) (v : Nat) (ix jx : List Nat) (h : r.key ix ≠ g.reg.key jx) :
    (s.wr g v jx).word r ix = s.word r ix := by
  simp [State.wr, State.word_setWord_other _ _ _ _ _ _ h]

theorem State.rd_raise (s : State) (f : Field) (ix : List Nat) (hf : f.fits = true) (hw : 1 ≤ f.width) :
    (s.raise f ix).rd f ix = 1 := by
  rw [State.raise, State.rd_wr _ _ _ _ hf]
  exact Nat.mod_eq_of_lt (Nat.one_lt_two_pow (by omega))

theorem State.on_raise (s : State) (f : Field) (ix : List Nat) (hf : f.fits = true) (hw : 1 ≤ f.width) :
    (s.raise f ix).on f ix = true := by simp [State.on, State.rd_raise s f ix hf hw]

theorem State.rd_count (s : State) (f : Field) (ix : List Nat) (n : Nat) (hf : f.fits = true) :
    (s.count f ix n).rd f ix = (s.rd f ix + n) % 2 ^ f.width := State.rd_wr _ _ _ _ hf

/-! ## Reading is reading of the register words -/

theorem State.rd_of_regs {s t : State} (h : t.regs = s.regs) (f : Field) (ix : List Nat) : t.rd f ix = s.rd f ix := by
  simp [State.rd, State.word, h]

theorem State.word_of_regs {s t : State} (h : t.regs = s.regs) (r : Reg) (ix : List Nat) : t.word r ix = s.word r ix := by
  simp [State.word, h]

end Sys2Proof.Machine
end

