-- ==== Sys2Proof/Laws/State.lean ====
section
/-!
SUPPORT. What the updates of the state leave alone: one lemma for each field and update, true by unfolding.
-/

namespace Sys2Proof.Machine

variable (s : State)

/-! ## setWord -/

@[simp] theorem State.setWord_part (r : Reg) (v : Word) (ix : List Nat) : (s.setWord r v ix).part = s.part := rfl
@[simp] theorem State.setWord_time (r : Reg) (v : Word) (ix : List Nat) : (s.setWord r v ix).time = s.time := rfl
@[simp] theorem State.setWord_clk (r : Reg) (v : Word) (ix : List Nat) : (s.setWord r v ix).clk = s.clk := rfl
@[simp] theorem State.setWord_ptp (r : Reg) (v : Word) (ix : List Nat) : (s.setWord r v ix).ptp = s.ptp := rfl
@[simp] theorem State.setWord_net (r : Reg) (v : Word) (ix : List Nat) : (s.setWord r v ix).net = s.net := rfl
@[simp] theorem State.setWord_str (r : Reg) (v : Word) (ix : List Nat) : (s.setWord r v ix).str = s.str := rfl
@[simp] theorem State.setWord_scene (r : Reg) (v : Word) (ix : List Nat) : (s.setWord r v ix).scene = s.scene := rfl
@[simp] theorem State.setWord_osp (r : Reg) (v : Word) (ix : List Nat) : (s.setWord r v ix).osp = s.osp := rfl
@[simp] theorem State.setWord_brm (r : Reg) (v : Word) (ix : List Nat) : (s.setWord r v ix).brm = s.brm := rfl
@[simp] theorem State.setWord_mdi (r : Reg) (v : Word) (ix : List Nat) : (s.setWord r v ix).mdi = s.mdi := rfl
@[simp] theorem State.setWord_sap (r : Reg) (v : Word) (ix : List Nat) : (s.setWord r v ix).sap = s.sap := rfl
@[simp] theorem State.setWord_conv (r : Reg) (v : Word) (ix : List Nat) : (s.setWord r v ix).conv = s.conv := rfl
@[simp] theorem State.setWord_lines (r : Reg) (v : Word) (ix : List Nat) : (s.setWord r v ix).lines = s.lines := rfl
@[simp] theorem State.setWord_inp (r : Reg) (v : Word) (ix : List Nat) : (s.setWord r v ix).inp = s.inp := rfl
@[simp] theorem State.setWord_rend (r : Reg) (v : Word) (ix : List Nat) : (s.setWord r v ix).rend = s.rend := rfl
@[simp] theorem State.setWord_swapAt (r : Reg) (v : Word) (ix : List Nat) : (s.setWord r v ix).swapAt = s.swapAt := rfl
@[simp] theorem State.setWord_xp (r : Reg) (v : Word) (ix : List Nat) : (s.setWord r v ix).xp = s.xp := rfl
@[simp] theorem State.setWord_out (r : Reg) (v : Word) (ix : List Nat) : (s.setWord r v ix).out = s.out := rfl
@[simp] theorem State.setWord_cells (r : Reg) (v : Word) (ix : List Nat) : (s.setWord r v ix).cells = s.cells := rfl
@[simp] theorem State.setWord_stage (r : Reg) (v : Word) (ix : List Nat) : (s.setWord r v ix).stage = s.stage := rfl
@[simp] theorem State.setWord_core (r : Reg) (v : Word) (ix : List Nat) : (s.setWord r v ix).core = s.core := rfl
@[simp] theorem State.setWord_pipe (r : Reg) (v : Word) (ix : List Nat) : (s.setWord r v ix).pipe = s.pipe := rfl
@[simp] theorem State.setWord_keys (r : Reg) (v : Word) (ix : List Nat) : (s.setWord r v ix).keys = s.keys := rfl
@[simp] theorem State.setWord_dram (r : Reg) (v : Word) (ix : List Nat) : (s.setWord r v ix).dram = s.dram := rfl
@[simp] theorem State.setWord_flash (r : Reg) (v : Word) (ix : List Nat) : (s.setWord r v ix).flash = s.flash := rfl
@[simp] theorem State.setWord_ring (r : Reg) (v : Word) (ix : List Nat) : (s.setWord r v ix).ring = s.ring := rfl
@[simp] theorem State.setWord_pair (r : Reg) (v : Word) (ix : List Nat) : (s.setWord r v ix).pair = s.pair := rfl
@[simp] theorem State.setWord_sec (r : Reg) (v : Word) (ix : List Nat) : (s.setWord r v ix).sec = s.sec := rfl
@[simp] theorem State.setWord_txn (r : Reg) (v : Word) (ix : List Nat) : (s.setWord r v ix).txn = s.txn := rfl
@[simp] theorem State.setWord_commits (r : Reg) (v : Word) (ix : List Nat) : (s.setWord r v ix).commits = s.commits := rfl
@[simp] theorem State.setWord_log (r : Reg) (v : Word) (ix : List Nat) : (s.setWord r v ix).log = s.log := rfl
@[simp] theorem State.setWord_boot (r : Reg) (v : Word) (ix : List Nat) : (s.setWord r v ix).boot = s.boot := rfl
@[simp] theorem State.setWord_pwr (r : Reg) (v : Word) (ix : List Nat) : (s.setWord r v ix).pwr = s.pwr := rfl
@[simp] theorem State.setWord_tst (r : Reg) (v : Word) (ix : List Nat) : (s.setWord r v ix).tst = s.tst := rfl
@[simp] theorem State.setWord_fab (r : Reg) (v : Word) (ix : List Nat) : (s.setWord r v ix).fab = s.fab := rfl
@[simp] theorem State.setWord_fresh (r : Reg) (v : Word) (ix : List Nat) : (s.setWord r v ix).fresh = s.fresh := rfl
@[simp] theorem State.setWord_outbox (r : Reg) (v : Word) (ix : List Nat) : (s.setWord r v ix).outbox = s.outbox := rfl
@[simp] theorem State.setWord_pending (r : Reg) (v : Word) (ix : List Nat) : (s.setWord r v ix).pending = s.pending := rfl

/-! ## wr -/

@[simp] theorem State.wr_part (f : Field) (v : Nat) (ix : List Nat) : (s.wr f v ix).part = s.part := rfl
@[simp] theorem State.wr_time (f : Field) (v : Nat) (ix : List Nat) : (s.wr f v ix).time = s.time := rfl
@[simp] theorem State.wr_clk (f : Field) (v : Nat) (ix : List Nat) : (s.wr f v ix).clk = s.clk := rfl
@[simp] theorem State.wr_ptp (f : Field) (v : Nat) (ix : List Nat) : (s.wr f v ix).ptp = s.ptp := rfl
@[simp] theorem State.wr_net (f : Field) (v : Nat) (ix : List Nat) : (s.wr f v ix).net = s.net := rfl
@[simp] theorem State.wr_str (f : Field) (v : Nat) (ix : List Nat) : (s.wr f v ix).str = s.str := rfl
@[simp] theorem State.wr_scene (f : Field) (v : Nat) (ix : List Nat) : (s.wr f v ix).scene = s.scene := rfl
@[simp] theorem State.wr_osp (f : Field) (v : Nat) (ix : List Nat) : (s.wr f v ix).osp = s.osp := rfl
@[simp] theorem State.wr_brm (f : Field) (v : Nat) (ix : List Nat) : (s.wr f v ix).brm = s.brm := rfl
@[simp] theorem State.wr_mdi (f : Field) (v : Nat) (ix : List Nat) : (s.wr f v ix).mdi = s.mdi := rfl
@[simp] theorem State.wr_sap (f : Field) (v : Nat) (ix : List Nat) : (s.wr f v ix).sap = s.sap := rfl
@[simp] theorem State.wr_conv (f : Field) (v : Nat) (ix : List Nat) : (s.wr f v ix).conv = s.conv := rfl
@[simp] theorem State.wr_lines (f : Field) (v : Nat) (ix : List Nat) : (s.wr f v ix).lines = s.lines := rfl
@[simp] theorem State.wr_inp (f : Field) (v : Nat) (ix : List Nat) : (s.wr f v ix).inp = s.inp := rfl
@[simp] theorem State.wr_rend (f : Field) (v : Nat) (ix : List Nat) : (s.wr f v ix).rend = s.rend := rfl
@[simp] theorem State.wr_swapAt (f : Field) (v : Nat) (ix : List Nat) : (s.wr f v ix).swapAt = s.swapAt := rfl
@[simp] theorem State.wr_xp (f : Field) (v : Nat) (ix : List Nat) : (s.wr f v ix).xp = s.xp := rfl
@[simp] theorem State.wr_out (f : Field) (v : Nat) (ix : List Nat) : (s.wr f v ix).out = s.out := rfl
@[simp] theorem State.wr_cells (f : Field) (v : Nat) (ix : List Nat) : (s.wr f v ix).cells = s.cells := rfl
@[simp] theorem State.wr_stage (f : Field) (v : Nat) (ix : List Nat) : (s.wr f v ix).stage = s.stage := rfl
@[simp] theorem State.wr_core (f : Field) (v : Nat) (ix : List Nat) : (s.wr f v ix).core = s.core := rfl
@[simp] theorem State.wr_pipe (f : Field) (v : Nat) (ix : List Nat) : (s.wr f v ix).pipe = s.pipe := rfl
@[simp] theorem State.wr_keys (f : Field) (v : Nat) (ix : List Nat) : (s.wr f v ix).keys = s.keys := rfl
@[simp] theorem State.wr_dram (f : Field) (v : Nat) (ix : List Nat) : (s.wr f v ix).dram = s.dram := rfl
@[simp] theorem State.wr_flash (f : Field) (v : Nat) (ix : List Nat) : (s.wr f v ix).flash = s.flash := rfl
@[simp] theorem State.wr_ring (f : Field) (v : Nat) (ix : List Nat) : (s.wr f v ix).ring = s.ring := rfl
@[simp] theorem State.wr_pair (f : Field) (v : Nat) (ix : List Nat) : (s.wr f v ix).pair = s.pair := rfl
@[simp] theorem State.wr_sec (f : Field) (v : Nat) (ix : List Nat) : (s.wr f v ix).sec = s.sec := rfl
@[simp] theorem State.wr_txn (f : Field) (v : Nat) (ix : List Nat) : (s.wr f v ix).txn = s.txn := rfl
@[simp] theorem State.wr_commits (f : Field) (v : Nat) (ix : List Nat) : (s.wr f v ix).commits = s.commits := rfl
@[simp] theorem State.wr_log (f : Field) (v : Nat) (ix : List Nat) : (s.wr f v ix).log = s.log := rfl
@[simp] theorem State.wr_boot (f : Field) (v : Nat) (ix : List Nat) : (s.wr f v ix).boot = s.boot := rfl
@[simp] theorem State.wr_pwr (f : Field) (v : Nat) (ix : List Nat) : (s.wr f v ix).pwr = s.pwr := rfl
@[simp] theorem State.wr_tst (f : Field) (v : Nat) (ix : List Nat) : (s.wr f v ix).tst = s.tst := rfl
@[simp] theorem State.wr_fab (f : Field) (v : Nat) (ix : List Nat) : (s.wr f v ix).fab = s.fab := rfl
@[simp] theorem State.wr_fresh (f : Field) (v : Nat) (ix : List Nat) : (s.wr f v ix).fresh = s.fresh := rfl
@[simp] theorem State.wr_outbox (f : Field) (v : Nat) (ix : List Nat) : (s.wr f v ix).outbox = s.outbox := rfl
@[simp] theorem State.wr_pending (f : Field) (v : Nat) (ix : List Nat) : (s.wr f v ix).pending = s.pending := rfl

/-! ## wrS -/

@[simp] theorem State.wrS_part (f : Field) (v : Int) (ix : List Nat) : (s.wrS f v ix).part = s.part := rfl
@[simp] theorem State.wrS_time (f : Field) (v : Int) (ix : List Nat) : (s.wrS f v ix).time = s.time := rfl
@[simp] theorem State.wrS_clk (f : Field) (v : Int) (ix : List Nat) : (s.wrS f v ix).clk = s.clk := rfl
@[simp] theorem State.wrS_ptp (f : Field) (v : Int) (ix : List Nat) : (s.wrS f v ix).ptp = s.ptp := rfl
@[simp] theorem State.wrS_net (f : Field) (v : Int) (ix : List Nat) : (s.wrS f v ix).net = s.net := rfl
@[simp] theorem State.wrS_str (f : Field) (v : Int) (ix : List Nat) : (s.wrS f v ix).str = s.str := rfl
@[simp] theorem State.wrS_scene (f : Field) (v : Int) (ix : List Nat) : (s.wrS f v ix).scene = s.scene := rfl
@[simp] theorem State.wrS_osp (f : Field) (v : Int) (ix : List Nat) : (s.wrS f v ix).osp = s.osp := rfl
@[simp] theorem State.wrS_brm (f : Field) (v : Int) (ix : List Nat) : (s.wrS f v ix).brm = s.brm := rfl
@[simp] theorem State.wrS_mdi (f : Field) (v : Int) (ix : List Nat) : (s.wrS f v ix).mdi = s.mdi := rfl
@[simp] theorem State.wrS_sap (f : Field) (v : Int) (ix : List Nat) : (s.wrS f v ix).sap = s.sap := rfl
@[simp] theorem State.wrS_conv (f : Field) (v : Int) (ix : List Nat) : (s.wrS f v ix).conv = s.conv := rfl
@[simp] theorem State.wrS_lines (f : Field) (v : Int) (ix : List Nat) : (s.wrS f v ix).lines = s.lines := rfl
@[simp] theorem State.wrS_inp (f : Field) (v : Int) (ix : List Nat) : (s.wrS f v ix).inp = s.inp := rfl
@[simp] theorem State.wrS_rend (f : Field) (v : Int) (ix : List Nat) : (s.wrS f v ix).rend = s.rend := rfl
@[simp] theorem State.wrS_swapAt (f : Field) (v : Int) (ix : List Nat) : (s.wrS f v ix).swapAt = s.swapAt := rfl
@[simp] theorem State.wrS_xp (f : Field) (v : Int) (ix : List Nat) : (s.wrS f v ix).xp = s.xp := rfl
@[simp] theorem State.wrS_out (f : Field) (v : Int) (ix : List Nat) : (s.wrS f v ix).out = s.out := rfl
@[simp] theorem State.wrS_cells (f : Field) (v : Int) (ix : List Nat) : (s.wrS f v ix).cells = s.cells := rfl
@[simp] theorem State.wrS_stage (f : Field) (v : Int) (ix : List Nat) : (s.wrS f v ix).stage = s.stage := rfl
@[simp] theorem State.wrS_core (f : Field) (v : Int) (ix : List Nat) : (s.wrS f v ix).core = s.core := rfl
@[simp] theorem State.wrS_pipe (f : Field) (v : Int) (ix : List Nat) : (s.wrS f v ix).pipe = s.pipe := rfl
@[simp] theorem State.wrS_keys (f : Field) (v : Int) (ix : List Nat) : (s.wrS f v ix).keys = s.keys := rfl
@[simp] theorem State.wrS_dram (f : Field) (v : Int) (ix : List Nat) : (s.wrS f v ix).dram = s.dram := rfl
@[simp] theorem State.wrS_flash (f : Field) (v : Int) (ix : List Nat) : (s.wrS f v ix).flash = s.flash := rfl
@[simp] theorem State.wrS_ring (f : Field) (v : Int) (ix : List Nat) : (s.wrS f v ix).ring = s.ring := rfl
@[simp] theorem State.wrS_pair (f : Field) (v : Int) (ix : List Nat) : (s.wrS f v ix).pair = s.pair := rfl
@[simp] theorem State.wrS_sec (f : Field) (v : Int) (ix : List Nat) : (s.wrS f v ix).sec = s.sec := rfl
@[simp] theorem State.wrS_txn (f : Field) (v : Int) (ix : List Nat) : (s.wrS f v ix).txn = s.txn := rfl
@[simp] theorem State.wrS_commits (f : Field) (v : Int) (ix : List Nat) : (s.wrS f v ix).commits = s.commits := rfl
@[simp] theorem State.wrS_log (f : Field) (v : Int) (ix : List Nat) : (s.wrS f v ix).log = s.log := rfl
@[simp] theorem State.wrS_boot (f : Field) (v : Int) (ix : List Nat) : (s.wrS f v ix).boot = s.boot := rfl
@[simp] theorem State.wrS_pwr (f : Field) (v : Int) (ix : List Nat) : (s.wrS f v ix).pwr = s.pwr := rfl
@[simp] theorem State.wrS_tst (f : Field) (v : Int) (ix : List Nat) : (s.wrS f v ix).tst = s.tst := rfl
@[simp] theorem State.wrS_fab (f : Field) (v : Int) (ix : List Nat) : (s.wrS f v ix).fab = s.fab := rfl
@[simp] theorem State.wrS_fresh (f : Field) (v : Int) (ix : List Nat) : (s.wrS f v ix).fresh = s.fresh := rfl
@[simp] theorem State.wrS_outbox (f : Field) (v : Int) (ix : List Nat) : (s.wrS f v ix).outbox = s.outbox := rfl
@[simp] theorem State.wrS_pending (f : Field) (v : Int) (ix : List Nat) : (s.wrS f v ix).pending = s.pending := rfl

/-! ## raise -/

@[simp] theorem State.raise_part (f : Field) (ix : List Nat) : (s.raise f ix).part = s.part := rfl
@[simp] theorem State.raise_time (f : Field) (ix : List Nat) : (s.raise f ix).time = s.time := rfl
@[simp] theorem State.raise_clk (f : Field) (ix : List Nat) : (s.raise f ix).clk = s.clk := rfl
@[simp] theorem State.raise_ptp (f : Field) (ix : List Nat) : (s.raise f ix).ptp = s.ptp := rfl
@[simp] theorem State.raise_net (f : Field) (ix : List Nat) : (s.raise f ix).net = s.net := rfl
@[simp] theorem State.raise_str (f : Field) (ix : List Nat) : (s.raise f ix).str = s.str := rfl
@[simp] theorem State.raise_scene (f : Field) (ix : List Nat) : (s.raise f ix).scene = s.scene := rfl
@[simp] theorem State.raise_osp (f : Field) (ix : List Nat) : (s.raise f ix).osp = s.osp := rfl
@[simp] theorem State.raise_brm (f : Field) (ix : List Nat) : (s.raise f ix).brm = s.brm := rfl
@[simp] theorem State.raise_mdi (f : Field) (ix : List Nat) : (s.raise f ix).mdi = s.mdi := rfl
@[simp] theorem State.raise_sap (f : Field) (ix : List Nat) : (s.raise f ix).sap = s.sap := rfl
@[simp] theorem State.raise_conv (f : Field) (ix : List Nat) : (s.raise f ix).conv = s.conv := rfl
@[simp] theorem State.raise_lines (f : Field) (ix : List Nat) : (s.raise f ix).lines = s.lines := rfl
@[simp] theorem State.raise_inp (f : Field) (ix : List Nat) : (s.raise f ix).inp = s.inp := rfl
@[simp] theorem State.raise_rend (f : Field) (ix : List Nat) : (s.raise f ix).rend = s.rend := rfl
@[simp] theorem State.raise_swapAt (f : Field) (ix : List Nat) : (s.raise f ix).swapAt = s.swapAt := rfl
@[simp] theorem State.raise_xp (f : Field) (ix : List Nat) : (s.raise f ix).xp = s.xp := rfl
@[simp] theorem State.raise_out (f : Field) (ix : List Nat) : (s.raise f ix).out = s.out := rfl
@[simp] theorem State.raise_cells (f : Field) (ix : List Nat) : (s.raise f ix).cells = s.cells := rfl
@[simp] theorem State.raise_stage (f : Field) (ix : List Nat) : (s.raise f ix).stage = s.stage := rfl
@[simp] theorem State.raise_core (f : Field) (ix : List Nat) : (s.raise f ix).core = s.core := rfl
@[simp] theorem State.raise_pipe (f : Field) (ix : List Nat) : (s.raise f ix).pipe = s.pipe := rfl
@[simp] theorem State.raise_keys (f : Field) (ix : List Nat) : (s.raise f ix).keys = s.keys := rfl
@[simp] theorem State.raise_dram (f : Field) (ix : List Nat) : (s.raise f ix).dram = s.dram := rfl
@[simp] theorem State.raise_flash (f : Field) (ix : List Nat) : (s.raise f ix).flash = s.flash := rfl
@[simp] theorem State.raise_ring (f : Field) (ix : List Nat) : (s.raise f ix).ring = s.ring := rfl
@[simp] theorem State.raise_pair (f : Field) (ix : List Nat) : (s.raise f ix).pair = s.pair := rfl
@[simp] theorem State.raise_sec (f : Field) (ix : List Nat) : (s.raise f ix).sec = s.sec := rfl
@[simp] theorem State.raise_txn (f : Field) (ix : List Nat) : (s.raise f ix).txn = s.txn := rfl
@[simp] theorem State.raise_commits (f : Field) (ix : List Nat) : (s.raise f ix).commits = s.commits := rfl
@[simp] theorem State.raise_log (f : Field) (ix : List Nat) : (s.raise f ix).log = s.log := rfl
@[simp] theorem State.raise_boot (f : Field) (ix : List Nat) : (s.raise f ix).boot = s.boot := rfl
@[simp] theorem State.raise_pwr (f : Field) (ix : List Nat) : (s.raise f ix).pwr = s.pwr := rfl
@[simp] theorem State.raise_tst (f : Field) (ix : List Nat) : (s.raise f ix).tst = s.tst := rfl
@[simp] theorem State.raise_fab (f : Field) (ix : List Nat) : (s.raise f ix).fab = s.fab := rfl
@[simp] theorem State.raise_fresh (f : Field) (ix : List Nat) : (s.raise f ix).fresh = s.fresh := rfl
@[simp] theorem State.raise_outbox (f : Field) (ix : List Nat) : (s.raise f ix).outbox = s.outbox := rfl
@[simp] theorem State.raise_pending (f : Field) (ix : List Nat) : (s.raise f ix).pending = s.pending := rfl

/-! ## count -/

@[simp] theorem State.count_part (f : Field) (ix : List Nat) (n : Nat) : (s.count f ix n).part = s.part := rfl
@[simp] theorem State.count_time (f : Field) (ix : List Nat) (n : Nat) : (s.count f ix n).time = s.time := rfl
@[simp] theorem State.count_clk (f : Field) (ix : List Nat) (n : Nat) : (s.count f ix n).clk = s.clk := rfl
@[simp] theorem State.count_ptp (f : Field) (ix : List Nat) (n : Nat) : (s.count f ix n).ptp = s.ptp := rfl
@[simp] theorem State.count_net (f : Field) (ix : List Nat) (n : Nat) : (s.count f ix n).net = s.net := rfl
@[simp] theorem State.count_str (f : Field) (ix : List Nat) (n : Nat) : (s.count f ix n).str = s.str := rfl
@[simp] theorem State.count_scene (f : Field) (ix : List Nat) (n : Nat) : (s.count f ix n).scene = s.scene := rfl
@[simp] theorem State.count_osp (f : Field) (ix : List Nat) (n : Nat) : (s.count f ix n).osp = s.osp := rfl
@[simp] theorem State.count_brm (f : Field) (ix : List Nat) (n : Nat) : (s.count f ix n).brm = s.brm := rfl
@[simp] theorem State.count_mdi (f : Field) (ix : List Nat) (n : Nat) : (s.count f ix n).mdi = s.mdi := rfl
@[simp] theorem State.count_sap (f : Field) (ix : List Nat) (n : Nat) : (s.count f ix n).sap = s.sap := rfl
@[simp] theorem State.count_conv (f : Field) (ix : List Nat) (n : Nat) : (s.count f ix n).conv = s.conv := rfl
@[simp] theorem State.count_lines (f : Field) (ix : List Nat) (n : Nat) : (s.count f ix n).lines = s.lines := rfl
@[simp] theorem State.count_inp (f : Field) (ix : List Nat) (n : Nat) : (s.count f ix n).inp = s.inp := rfl
@[simp] theorem State.count_rend (f : Field) (ix : List Nat) (n : Nat) : (s.count f ix n).rend = s.rend := rfl
@[simp] theorem State.count_swapAt (f : Field) (ix : List Nat) (n : Nat) : (s.count f ix n).swapAt = s.swapAt := rfl
@[simp] theorem State.count_xp (f : Field) (ix : List Nat) (n : Nat) : (s.count f ix n).xp = s.xp := rfl
@[simp] theorem State.count_out (f : Field) (ix : List Nat) (n : Nat) : (s.count f ix n).out = s.out := rfl
@[simp] theorem State.count_cells (f : Field) (ix : List Nat) (n : Nat) : (s.count f ix n).cells = s.cells := rfl
@[simp] theorem State.count_stage (f : Field) (ix : List Nat) (n : Nat) : (s.count f ix n).stage = s.stage := rfl
@[simp] theorem State.count_core (f : Field) (ix : List Nat) (n : Nat) : (s.count f ix n).core = s.core := rfl
@[simp] theorem State.count_pipe (f : Field) (ix : List Nat) (n : Nat) : (s.count f ix n).pipe = s.pipe := rfl
@[simp] theorem State.count_keys (f : Field) (ix : List Nat) (n : Nat) : (s.count f ix n).keys = s.keys := rfl
@[simp] theorem State.count_dram (f : Field) (ix : List Nat) (n : Nat) : (s.count f ix n).dram = s.dram := rfl
@[simp] theorem State.count_flash (f : Field) (ix : List Nat) (n : Nat) : (s.count f ix n).flash = s.flash := rfl
@[simp] theorem State.count_ring (f : Field) (ix : List Nat) (n : Nat) : (s.count f ix n).ring = s.ring := rfl
@[simp] theorem State.count_pair (f : Field) (ix : List Nat) (n : Nat) : (s.count f ix n).pair = s.pair := rfl
@[simp] theorem State.count_sec (f : Field) (ix : List Nat) (n : Nat) : (s.count f ix n).sec = s.sec := rfl
@[simp] theorem State.count_txn (f : Field) (ix : List Nat) (n : Nat) : (s.count f ix n).txn = s.txn := rfl
@[simp] theorem State.count_commits (f : Field) (ix : List Nat) (n : Nat) : (s.count f ix n).commits = s.commits := rfl
@[simp] theorem State.count_log (f : Field) (ix : List Nat) (n : Nat) : (s.count f ix n).log = s.log := rfl
@[simp] theorem State.count_boot (f : Field) (ix : List Nat) (n : Nat) : (s.count f ix n).boot = s.boot := rfl
@[simp] theorem State.count_pwr (f : Field) (ix : List Nat) (n : Nat) : (s.count f ix n).pwr = s.pwr := rfl
@[simp] theorem State.count_tst (f : Field) (ix : List Nat) (n : Nat) : (s.count f ix n).tst = s.tst := rfl
@[simp] theorem State.count_fab (f : Field) (ix : List Nat) (n : Nat) : (s.count f ix n).fab = s.fab := rfl
@[simp] theorem State.count_fresh (f : Field) (ix : List Nat) (n : Nat) : (s.count f ix n).fresh = s.fresh := rfl
@[simp] theorem State.count_outbox (f : Field) (ix : List Nat) (n : Nat) : (s.count f ix n).outbox = s.outbox := rfl
@[simp] theorem State.count_pending (f : Field) (ix : List Nat) (n : Nat) : (s.count f ix n).pending = s.pending := rfl

/-! ## emit -/

@[simp] theorem State.emit_part (o : Output) : (s.emit o).part = s.part := rfl
@[simp] theorem State.emit_regs (o : Output) : (s.emit o).regs = s.regs := rfl
@[simp] theorem State.emit_time (o : Output) : (s.emit o).time = s.time := rfl
@[simp] theorem State.emit_clk (o : Output) : (s.emit o).clk = s.clk := rfl
@[simp] theorem State.emit_ptp (o : Output) : (s.emit o).ptp = s.ptp := rfl
@[simp] theorem State.emit_net (o : Output) : (s.emit o).net = s.net := rfl
@[simp] theorem State.emit_str (o : Output) : (s.emit o).str = s.str := rfl
@[simp] theorem State.emit_scene (o : Output) : (s.emit o).scene = s.scene := rfl
@[simp] theorem State.emit_osp (o : Output) : (s.emit o).osp = s.osp := rfl
@[simp] theorem State.emit_brm (o : Output) : (s.emit o).brm = s.brm := rfl
@[simp] theorem State.emit_mdi (o : Output) : (s.emit o).mdi = s.mdi := rfl
@[simp] theorem State.emit_sap (o : Output) : (s.emit o).sap = s.sap := rfl
@[simp] theorem State.emit_conv (o : Output) : (s.emit o).conv = s.conv := rfl
@[simp] theorem State.emit_lines (o : Output) : (s.emit o).lines = s.lines := rfl
@[simp] theorem State.emit_inp (o : Output) : (s.emit o).inp = s.inp := rfl
@[simp] theorem State.emit_rend (o : Output) : (s.emit o).rend = s.rend := rfl
@[simp] theorem State.emit_swapAt (o : Output) : (s.emit o).swapAt = s.swapAt := rfl
@[simp] theorem State.emit_xp (o : Output) : (s.emit o).xp = s.xp := rfl
@[simp] theorem State.emit_out (o : Output) : (s.emit o).out = s.out := rfl
@[simp] theorem State.emit_cells (o : Output) : (s.emit o).cells = s.cells := rfl
@[simp] theorem State.emit_stage (o : Output) : (s.emit o).stage = s.stage := rfl
@[simp] theorem State.emit_core (o : Output) : (s.emit o).core = s.core := rfl
@[simp] theorem State.emit_pipe (o : Output) : (s.emit o).pipe = s.pipe := rfl
@[simp] theorem State.emit_keys (o : Output) : (s.emit o).keys = s.keys := rfl
@[simp] theorem State.emit_dram (o : Output) : (s.emit o).dram = s.dram := rfl
@[simp] theorem State.emit_flash (o : Output) : (s.emit o).flash = s.flash := rfl
@[simp] theorem State.emit_ring (o : Output) : (s.emit o).ring = s.ring := rfl
@[simp] theorem State.emit_pair (o : Output) : (s.emit o).pair = s.pair := rfl
@[simp] theorem State.emit_sec (o : Output) : (s.emit o).sec = s.sec := rfl
@[simp] theorem State.emit_txn (o : Output) : (s.emit o).txn = s.txn := rfl
@[simp] theorem State.emit_commits (o : Output) : (s.emit o).commits = s.commits := rfl
@[simp] theorem State.emit_log (o : Output) : (s.emit o).log = s.log := rfl
@[simp] theorem State.emit_boot (o : Output) : (s.emit o).boot = s.boot := rfl
@[simp] theorem State.emit_pwr (o : Output) : (s.emit o).pwr = s.pwr := rfl
@[simp] theorem State.emit_tst (o : Output) : (s.emit o).tst = s.tst := rfl
@[simp] theorem State.emit_fab (o : Output) : (s.emit o).fab = s.fab := rfl
@[simp] theorem State.emit_fresh (o : Output) : (s.emit o).fresh = s.fresh := rfl
@[simp] theorem State.emit_pending (o : Output) : (s.emit o).pending = s.pending := rfl
@[simp] theorem State.emit_outbox (o : Output) : (s.emit o).outbox = o :: s.outbox := rfl

@[simp] theorem State.emit_word (o : Output) (r : Reg) (ix : List Nat) : (s.emit o).word r ix = s.word r ix := rfl
@[simp] theorem State.emit_rd (o : Output) (f : Field) (ix : List Nat) : (s.emit o).rd f ix = s.rd f ix := rfl
@[simp] theorem State.emit_on (o : Output) (f : Field) (ix : List Nat) : (s.emit o).on f ix = s.on f ix := rfl

@[simp] theorem State.raiseIf_true (f : Field) (ix : List Nat) : s.raiseIf true f ix = s.raise f ix := rfl
@[simp] theorem State.raiseIf_false (f : Field) (ix : List Nat) : s.raiseIf false f ix = s := rfl
@[simp] theorem State.only_true (t : State) : s.only true t = t := rfl
@[simp] theorem State.only_false (t : State) : s.only false t = s := rfl

end Sys2Proof.Machine
end

