-- ==== Sys2Proof/Laws/Finish.lean ====
section
/-!
SUPPORT. Laws of the end of a command: what the judgement of the pair and the settling of the interrupts leave alone.
-/

namespace Sys2Proof.Machine

theorem State.finish_eq (s : State) : s.finish = .next s.ended := rfl

/-- A command whose meaning ends in `u` completes with whatever holds of the state that `u` is left as. -/
theorem completes_of {i : Instr} {s u : State} {P : State → Prop} (h : exec i s = u.finish) (hP : P u.ended) :
    Completes i s P := ⟨u.ended, h, hP⟩

/-! ## Settling -/

theorem State.signal_frame (s : State) (m : Nat) : s.signal m = { s with outbox := (s.signal m).outbox } := by
  unfold State.signal
  generalize List.range 26 = l
  induction l generalizing s with
  | nil => rfl
  | cons u l ih =>
    simp only [List.foldl_cons]
    split
    · rw [ih]; rfl
    · exact ih s

theorem State.settle_frame (s : State) : s.settle =
    { s with outbox := s.settle.outbox, fab := { s.fab with irq := s.irqMsi, brm := s.brmEvents, brmMsi := s.brmMsi },
             fresh := s.fresh + 1 } := by
  unfold State.settle
  simp only
  rw [State.signal_frame]

theorem State.irqMsi_of_regs {s t : State} (h : t.regs = s.regs) : t.irqMsi = s.irqMsi := by
  simp [State.irqMsi, State.irqStat, State.word, h]

@[simp] theorem State.settle_regs (s : State) : s.settle.regs = s.regs := by rw [State.settle_frame]

theorem State.brmEvents_of_regs {s t : State} (h : t.regs = s.regs) : t.brmEvents = s.brmEvents := by
  simp [State.brmEvents, h]

theorem State.brmMsi_of_regs {s t : State} (h : t.regs = s.regs) : t.brmMsi = s.brmMsi := by
  simp [State.brmMsi, State.word, h]

/-- After settling, what is remembered of the interrupts is what they are. -/
theorem State.settle_settled (s : State) : s.settle.settled := by
  have h := State.settle_regs s
  unfold State.settled
  rw [State.irqMsi_of_regs h, State.brmEvents_of_regs h, State.brmMsi_of_regs h, State.settle_frame]
  exact ⟨rfl, rfl, rfl⟩

/-! ## The judgement of the pair -/

/-- What no register write and no change of the pair's own state can alter is left alone by the judgement. -/
theorem State.pairJudge_keeps {α : Type} (g : State → α) (hw : ∀ (u : State) f v ix, g (u.wr f v ix) = g u)
    (hp : ∀ (u : State) p, g { u with pair := p } = g u) (s : State) : g s.pairJudge = g s := by
  unfold State.pairJudge State.giveUpControl State.beginResync State.raise
  simp only
  repeat' split
  all_goals simp only [hw, hp]

theorem State.beginResync_word (s : State) (r : Reg) (ix : List Nat) :
    s.beginResync.word r ix = ((s.wr F.RED_STAT_STATE 1).wr F.RED_STAT_STALE 0).word r ix := rfl

theorem State.pairJudge_word (s : State) (r : Reg) (ix : List Nat) (h : r.key ix ∉ judged) :
    s.pairJudge.word r ix = s.word r ix := by
  simp only [judged, List.mem_cons, List.not_mem_nil, or_false, not_or] at h
  obtain ⟨h1, h2, h3, h4⟩ := h
  have g1 : r.key ix ≠ F.RED_CAUSE_CAUSE.reg.key [] := h1
  have g2 : r.key ix ≠ F.RED_STAT_STATE.reg.key [] := h2
  have g3 : r.key ix ≠ F.RED_STAT_STALE.reg.key [] := h2
  have g4 : r.key ix ≠ F.RED_STAT_CLAIM_OUT.reg.key [] := h2
  have g5 : r.key ix ≠ F.RED_LASTCAUSE_CAUSE.reg.key [] := h3
  have g6 : r.key ix ≠ F.RED_EVT_YIELDED.reg.key [] := h4
  unfold State.pairJudge State.giveUpControl State.raise
  simp only
  repeat' split
  all_goals simp [State.word_wr_other, State.beginResync_word, g1, g2, g3, g4, g5, g6]

/-! ## The end of a command -/

theorem State.ended_word (s : State) (r : Reg) (ix : List Nat) (h : r.key ix ∉ judged) :
    s.ended.word r ix = s.word r ix := by
  rw [← State.pairJudge_word s r ix h]
  exact State.word_of_regs (by rw [State.ended, State.settle_regs]) r ix

theorem State.ended_rd (s : State) (f : Field) (ix : List Nat) (h : f.reg.key ix ∉ judged) :
    s.ended.rd f ix = s.rd f ix := by simp only [State.rd, State.ended_word s f.reg ix h]

theorem State.ended_on (s : State) (f : Field) (ix : List Nat) (h : f.reg.key ix ∉ judged) :
    s.ended.on f ix = s.on f ix := by simp only [State.on, State.ended_rd s f ix h]

theorem State.ended_settled (s : State) : s.ended.settled := State.settle_settled _

variable (s : State)

@[simp] theorem State.ended_part : s.ended.part = s.part := by
  have h : s.pairJudge.part = s.part := State.pairJudge_keeps State.part (fun _ _ _ _ => rfl) (fun _ _ => rfl) s
  unfold State.ended; rw [State.settle_frame]; exact h
@[simp] theorem State.ended_time : s.ended.time = s.time := by
  have h : s.pairJudge.time = s.time := State.pairJudge_keeps State.time (fun _ _ _ _ => rfl) (fun _ _ => rfl) s
  unfold State.ended; rw [State.settle_frame]; exact h
@[simp] theorem State.ended_clk : s.ended.clk = s.clk := by
  have h : s.pairJudge.clk = s.clk := State.pairJudge_keeps State.clk (fun _ _ _ _ => rfl) (fun _ _ => rfl) s
  unfold State.ended; rw [State.settle_frame]; exact h
@[simp] theorem State.ended_ptp : s.ended.ptp = s.ptp := by
  have h : s.pairJudge.ptp = s.ptp := State.pairJudge_keeps State.ptp (fun _ _ _ _ => rfl) (fun _ _ => rfl) s
  unfold State.ended; rw [State.settle_frame]; exact h
@[simp] theorem State.ended_net : s.ended.net = s.net := by
  have h : s.pairJudge.net = s.net := State.pairJudge_keeps State.net (fun _ _ _ _ => rfl) (fun _ _ => rfl) s
  unfold State.ended; rw [State.settle_frame]; exact h
@[simp] theorem State.ended_str : s.ended.str = s.str := by
  have h : s.pairJudge.str = s.str := State.pairJudge_keeps State.str (fun _ _ _ _ => rfl) (fun _ _ => rfl) s
  unfold State.ended; rw [State.settle_frame]; exact h
@[simp] theorem State.ended_scene : s.ended.scene = s.scene := by
  have h : s.pairJudge.scene = s.scene := State.pairJudge_keeps State.scene (fun _ _ _ _ => rfl) (fun _ _ => rfl) s
  unfold State.ended; rw [State.settle_frame]; exact h
@[simp] theorem State.ended_osp : s.ended.osp = s.osp := by
  have h : s.pairJudge.osp = s.osp := State.pairJudge_keeps State.osp (fun _ _ _ _ => rfl) (fun _ _ => rfl) s
  unfold State.ended; rw [State.settle_frame]; exact h
@[simp] theorem State.ended_brm : s.ended.brm = s.brm := by
  have h : s.pairJudge.brm = s.brm := State.pairJudge_keeps State.brm (fun _ _ _ _ => rfl) (fun _ _ => rfl) s
  unfold State.ended; rw [State.settle_frame]; exact h
@[simp] theorem State.ended_mdi : s.ended.mdi = s.mdi := by
  have h : s.pairJudge.mdi = s.mdi := State.pairJudge_keeps State.mdi (fun _ _ _ _ => rfl) (fun _ _ => rfl) s
  unfold State.ended; rw [State.settle_frame]; exact h
@[simp] theorem State.ended_sap : s.ended.sap = s.sap := by
  have h : s.pairJudge.sap = s.sap := State.pairJudge_keeps State.sap (fun _ _ _ _ => rfl) (fun _ _ => rfl) s
  unfold State.ended; rw [State.settle_frame]; exact h
@[simp] theorem State.ended_conv : s.ended.conv = s.conv := by
  have h : s.pairJudge.conv = s.conv := State.pairJudge_keeps State.conv (fun _ _ _ _ => rfl) (fun _ _ => rfl) s
  unfold State.ended; rw [State.settle_frame]; exact h
@[simp] theorem State.ended_lines : s.ended.lines = s.lines := by
  have h : s.pairJudge.lines = s.lines := State.pairJudge_keeps State.lines (fun _ _ _ _ => rfl) (fun _ _ => rfl) s
  unfold State.ended; rw [State.settle_frame]; exact h
@[simp] theorem State.ended_inp : s.ended.inp = s.inp := by
  have h : s.pairJudge.inp = s.inp := State.pairJudge_keeps State.inp (fun _ _ _ _ => rfl) (fun _ _ => rfl) s
  unfold State.ended; rw [State.settle_frame]; exact h
@[simp] theorem State.ended_rend : s.ended.rend = s.rend := by
  have h : s.pairJudge.rend = s.rend := State.pairJudge_keeps State.rend (fun _ _ _ _ => rfl) (fun _ _ => rfl) s
  unfold State.ended; rw [State.settle_frame]; exact h
@[simp] theorem State.ended_swapAt : s.ended.swapAt = s.swapAt := by
  have h : s.pairJudge.swapAt = s.swapAt := State.pairJudge_keeps State.swapAt (fun _ _ _ _ => rfl) (fun _ _ => rfl) s
  unfold State.ended; rw [State.settle_frame]; exact h
@[simp] theorem State.ended_xp : s.ended.xp = s.xp := by
  have h : s.pairJudge.xp = s.xp := State.pairJudge_keeps State.xp (fun _ _ _ _ => rfl) (fun _ _ => rfl) s
  unfold State.ended; rw [State.settle_frame]; exact h
@[simp] theorem State.ended_out : s.ended.out = s.out := by
  have h : s.pairJudge.out = s.out := State.pairJudge_keeps State.out (fun _ _ _ _ => rfl) (fun _ _ => rfl) s
  unfold State.ended; rw [State.settle_frame]; exact h
@[simp] theorem State.ended_cells : s.ended.cells = s.cells := by
  have h : s.pairJudge.cells = s.cells := State.pairJudge_keeps State.cells (fun _ _ _ _ => rfl) (fun _ _ => rfl) s
  unfold State.ended; rw [State.settle_frame]; exact h
@[simp] theorem State.ended_stage : s.ended.stage = s.stage := by
  have h : s.pairJudge.stage = s.stage := State.pairJudge_keeps State.stage (fun _ _ _ _ => rfl) (fun _ _ => rfl) s
  unfold State.ended; rw [State.settle_frame]; exact h
@[simp] theorem State.ended_core : s.ended.core = s.core := by
  have h : s.pairJudge.core = s.core := State.pairJudge_keeps State.core (fun _ _ _ _ => rfl) (fun _ _ => rfl) s
  unfold State.ended; rw [State.settle_frame]; exact h
@[simp] theorem State.ended_pipe : s.ended.pipe = s.pipe := by
  have h : s.pairJudge.pipe = s.pipe := State.pairJudge_keeps State.pipe (fun _ _ _ _ => rfl) (fun _ _ => rfl) s
  unfold State.ended; rw [State.settle_frame]; exact h
@[simp] theorem State.ended_keys : s.ended.keys = s.keys := by
  have h : s.pairJudge.keys = s.keys := State.pairJudge_keeps State.keys (fun _ _ _ _ => rfl) (fun _ _ => rfl) s
  unfold State.ended; rw [State.settle_frame]; exact h
@[simp] theorem State.ended_dram : s.ended.dram = s.dram := by
  have h : s.pairJudge.dram = s.dram := State.pairJudge_keeps State.dram (fun _ _ _ _ => rfl) (fun _ _ => rfl) s
  unfold State.ended; rw [State.settle_frame]; exact h
@[simp] theorem State.ended_flash : s.ended.flash = s.flash := by
  have h : s.pairJudge.flash = s.flash := State.pairJudge_keeps State.flash (fun _ _ _ _ => rfl) (fun _ _ => rfl) s
  unfold State.ended; rw [State.settle_frame]; exact h
@[simp] theorem State.ended_ring : s.ended.ring = s.ring := by
  have h : s.pairJudge.ring = s.ring := State.pairJudge_keeps State.ring (fun _ _ _ _ => rfl) (fun _ _ => rfl) s
  unfold State.ended; rw [State.settle_frame]; exact h
@[simp] theorem State.ended_sec : s.ended.sec = s.sec := by
  have h : s.pairJudge.sec = s.sec := State.pairJudge_keeps State.sec (fun _ _ _ _ => rfl) (fun _ _ => rfl) s
  unfold State.ended; rw [State.settle_frame]; exact h
@[simp] theorem State.ended_txn : s.ended.txn = s.txn := by
  have h : s.pairJudge.txn = s.txn := State.pairJudge_keeps State.txn (fun _ _ _ _ => rfl) (fun _ _ => rfl) s
  unfold State.ended; rw [State.settle_frame]; exact h
@[simp] theorem State.ended_commits : s.ended.commits = s.commits := by
  have h : s.pairJudge.commits = s.commits := State.pairJudge_keeps State.commits (fun _ _ _ _ => rfl) (fun _ _ => rfl) s
  unfold State.ended; rw [State.settle_frame]; exact h
@[simp] theorem State.ended_log : s.ended.log = s.log := by
  have h : s.pairJudge.log = s.log := State.pairJudge_keeps State.log (fun _ _ _ _ => rfl) (fun _ _ => rfl) s
  unfold State.ended; rw [State.settle_frame]; exact h
@[simp] theorem State.ended_boot : s.ended.boot = s.boot := by
  have h : s.pairJudge.boot = s.boot := State.pairJudge_keeps State.boot (fun _ _ _ _ => rfl) (fun _ _ => rfl) s
  unfold State.ended; rw [State.settle_frame]; exact h
@[simp] theorem State.ended_pwr : s.ended.pwr = s.pwr := by
  have h : s.pairJudge.pwr = s.pwr := State.pairJudge_keeps State.pwr (fun _ _ _ _ => rfl) (fun _ _ => rfl) s
  unfold State.ended; rw [State.settle_frame]; exact h
@[simp] theorem State.ended_tst : s.ended.tst = s.tst := by
  have h : s.pairJudge.tst = s.tst := State.pairJudge_keeps State.tst (fun _ _ _ _ => rfl) (fun _ _ => rfl) s
  unfold State.ended; rw [State.settle_frame]; exact h
@[simp] theorem State.ended_pending : s.ended.pending = s.pending := by
  have h : s.pairJudge.pending = s.pending := State.pairJudge_keeps State.pending (fun _ _ _ _ => rfl) (fun _ _ => rfl) s
  unfold State.ended; rw [State.settle_frame]; exact h
@[simp] theorem State.ended_fresh : s.ended.fresh = s.fresh + 1 := by
  have h : s.pairJudge.fresh = s.fresh := State.pairJudge_keeps State.fresh (fun _ _ _ _ => rfl) (fun _ _ => rfl) s
  unfold State.ended; rw [State.settle_frame]; exact congrArg (· + 1) h

/-- The end of a command sends nothing but interrupt messages. -/
@[simp] theorem State.ended_sends : s.ended.sends = s.sends := by
  have hs : ∀ (u : State) m, (u.signal m).sends = u.sends := by
    intro u m
    unfold State.signal
    generalize List.range 26 = l
    induction l generalizing u with
    | nil => rfl
    | cons a l ih =>
      simp only [List.foldl_cons]
      rw [ih]; split <;> rfl
  have hp : s.pairJudge.sends = s.sends := State.pairJudge_keeps State.sends (fun _ _ _ _ => rfl) (fun _ _ => rfl) s
  rw [← hp]
  exact hs _ _

end Sys2Proof.Machine
end

