-- ==== Sys2Proof/Laws/Host.lean ====
section
/-!
SUPPORT. Laws of host accesses: what a write that goes through does, and what a read returns.
-/

namespace Sys2Proof.Machine

theorem State.route_here (s : State) (addr : Nat) (h : addr < 0x4000000) : s.routeOf addr = .here := by
  have : addr / 0x4000000 = 0 := by omega
  simp [State.routeOf, this]

theorem State.jobEnd_acked (s : State) (a : Access) (g : List Nat) (hg : g = []) :
    s.jobEnd { access := a, reads := a.iface != .pcie, todo := [], got := g } 0 = s.acked a := by
  subst hg
  cases hi : a.iface <;> simp [State.jobEnd, State.acked, hi]

/-- One word that is performed here. -/
theorem State.runWords_one (s t : State) (a : Access) (reads : Bool) (addr size v : Nat) (w : Option Nat) (h : addr < 0x4000000)
    (hl : s.localWord a addr size w = (t, .ok v)) :
    s.runWords a reads [] [(addr, size, w)]
      = t.jobEnd { access := a, reads := reads, todo := [], got := if w.isNone then [v] else [] } 0 := by
  simp only [State.runWords, State.route_here s addr h, hl]
  cases w <;> rfl

theorem State.reaches_local {s : State} {a : Access} {r : Reg} {ix : List Nat} {e : RegEntry} {i : List Nat}
    (h : s.reaches a r ix = true) (he : findReg (r.addr ix) a.slot = some (e, i)) :
    r.addr ix % 4 = 0 ∧ r.addr ix < 0x4000000 ∧ s.pwr.off = false ∧ s.fab.drains.contains (Access.master a) = false
      ∧ s.answers (r.addr ix) = true ∧ s.windowAt (r.addr ix) = none ∧ s.present e i = true := by
  simp only [State.reaches, he, Bool.and_eq_true, decide_eq_true_eq, Bool.not_eq_true', Option.isNone_iff_eq_none] at h
  tauto

theorem State.setTxnSlot_regs (s : State) (i : Nat) (x : TxnSlot) : (s.setTxnSlot i x).regs = s.regs := rfl

theorem State.touch_frame (s : State) (a : Access) (addr : Nat) : s.touch a addr = { s with txn := (s.touch a addr).txn } := by
  unfold State.touch
  split <;> rfl

theorem State.windowAt_touch (s : State) (a : Access) (addr b : Nat) : (s.touch a addr).windowAt b = s.windowAt b := by
  rw [State.touch_frame]; rfl

theorem State.present_touch (s : State) (a : Access) (addr : Nat) (e : RegEntry) (i : List Nat) :
    (s.touch a addr).present e i = s.present e i := by
  rw [State.touch_frame]; rfl

/-- A write of 4 bytes that reaches a register is judged there. -/
theorem State.hostWrite_reaches {s : State} {a : Access} {r : Reg} {ix : List Nat} {e : RegEntry} {i : List Nat} {v : Nat}
    (h : s.reaches a r ix = true) (he : findReg (r.addr ix) a.slot = some (e, i)) :
    s.hostWrite a (r.addr ix) 4 v = ((s.touch a (r.addr ix)).writeReg a (r.addr ix) e i (v % 2 ^ 32)).acked a := by
  obtain ⟨h4, hm, ho, hd, ha, hw, hp⟩ := State.reaches_local h he
  have hl : s.localWord a (r.addr ix) 4 (some v)
      = ((s.touch a (r.addr ix)).writeReg a (r.addr ix) e i (v % 2 ^ 32), .ok 0) := by
    have h4' : r.addr ix / 4 * 4 = r.addr ix := by omega
    simp [State.localWord, h4, ha, State.windowAt_touch, hw, h4', he, State.present_touch, hp]
  unfold State.hostWrite State.startJob
  simp only [ho, hd, Bool.false_eq_true, if_false, accessWords]
  rw [if_neg (by decide)]
  rw [State.runWords_one _ _ _ _ _ _ _ _ hm hl]
  exact State.jobEnd_acked _ a _ rfl

theorem State.txnOwn_touch (s : State) (a b : Access) (addr : Nat) : (s.touch a addr).txnOwn b = s.txnOwn b := by
  unfold State.touch
  split
  · simp only [State.txnTouch, State.txnOwn, State.txnState, State.txnSlot, State.setTxnSlot, Tab.get_set]
    split
    · rename_i h; rw [h]; rfl
    · rfl
  · rfl

theorem State.alone_touch (s : State) (a b : Access) (addr : Nat) : (s.touch a addr).alone b = s.alone b := by
  unfold State.alone
  rw [State.txnOwn_touch, State.touch_frame]; rfl

theorem State.blocks_touch (s : State) (a : Access) (addr b : Nat) : (s.touch a addr).blocks b = s.blocks b := by
  rw [State.touch_frame]; rfl

theorem State.needs_touch (s : State) (a : Access) (addr : Nat) (f : Field) : (s.touch a addr).needs f = s.needs f := by
  rw [State.touch_frame]; rfl

theorem State.roleAt_touch (s : State) (a : Access) (addr : Nat) (b : Access) (e : RegEntry) :
    (s.touch a addr).roleAt b e = s.roleAt b e := by
  rw [State.touch_frame]; rfl

theorem State.fixedNow_touch (s : State) (a : Access) (addr : Nat) (r : Reg) (ix : List Nat) :
    (s.touch a addr).fixedNow r ix = s.fixedNow r ix := by
  rw [State.touch_frame]; rfl

/-- A write by a role that suffices for every field of the register stores the word as written. -/
theorem State.keepHidden_allows {s : State} {a : Access} {e : RegEntry} {ix : List Nat} {v : Nat}
    (h : ∀ f ∈ e.fields, s.needs f ≤ s.roleAt a e) (hv : v < 2 ^ 32) : s.keepHidden a e ix v = v := by
  have hh : s.hidden a e = [] := List.filter_eq_nil_iff.2 fun f hf => by simp [Nat.not_lt.2 (h f hf)]
  simpa [State.keepHidden, hh, fieldsInto] using hv

/-- A write that goes through acts on the state it has entered: what it changes of read-write fields is safe-loaded or stored
at once, and its actions happen. -/
theorem State.hostWrite_admits {s : State} {a : Access} {r : Reg} {ix : List Nat} {e : RegEntry} {i : List Nat} {v : Nat}
    (h : s.admits a r ix = true) (he : findReg (r.addr ix) a.slot = some (e, i)) (hv : v < 2 ^ 32)
    (hb : (changedFields e ((s.touch a (r.addr ix)).readBack a (r.addr ix) e i) v).any (fun f => f.acc == .rw) = false
      ∨ s.unblocked r ix = true) :
    s.hostWrite a (r.addr ix) 4 v =
      (let t := s.entered a r ix v
       if e.safe then (t.acts a e (e.home i) v).oneWrite a (r.addr ix) v
       else (if (changedFields e ((s.touch a (r.addr ix)).readBack a (r.addr ix) e i) v).any (fun f => f.acc == .rw)
         then t.storeNow e (e.home i) v else t).acts a e (e.home i) v).acked a := by
  simp only [State.admits, Bool.and_eq_true] at h
  obtain ⟨⟨hr, hal⟩, hone⟩ := h
  rw [State.hostWrite_reaches hr he, Nat.mod_eq_of_lt hv]
  congr 1
  simp only [State.allows, he, List.all_eq_true, decide_eq_true_eq] at hal
  have hden : (s.touch a (r.addr ix)).denies a e
      (changedFields e ((s.touch a (r.addr ix)).readBack a (r.addr ix) e i) v) = false := by
    simp only [State.denies, State.needs_touch, State.roleAt_touch, List.any_eq_false, decide_eq_true_eq, not_lt]
    exact fun f hfm => hal f (List.mem_filter.1 hfm).1
  have hone' : ((s.touch a (r.addr ix)).txnOwn a && ((s.touch a (r.addr ix)).txnState a.slot == 1
      || (s.touch a (r.addr ix)).txnState a.slot == 2)) = false := by
    have := State.alone_touch s a a (r.addr ix)
    rw [hone] at this
    simpa only [State.alone, Bool.not_eq_true'] using this
  unfold State.writeReg
  simp only [hden, hone', Bool.false_and, Bool.false_eq_true, if_false]
  unfold State.writeDirect
  have hblk : ((changedFields e ((s.touch a (r.addr ix)).readBack a (r.addr ix) e i) v).any (fun f => f.acc == .rw)
      && !(if directWindow (r.addr ix) then [] else (s.touch a (r.addr ix)).blocks (r.addr ix)).isEmpty) = false := by
    rcases hb with hb | hb
    · simp [hb]
    · simp only [State.unblocked, Bool.or_eq_true] at hb
      rw [State.blocks_touch]
      rcases hb with hb | hb
      · simp [hb]
      · cases hd : directWindow (r.addr ix) <;> simp [hb]
  simp only [hblk, Bool.false_eq_true, if_false, State.entered, he,
    State.keepHidden_allows (s := s.touch a (r.addr ix)) (by simpa only [State.needs_touch, State.roleAt_touch] using hal) hv]

end Sys2Proof.Machine
end

