-- ==== Sys2Proof/Laws/Luveren.lean ====
section
/-!
SUPPORT. Laws of the Luveren cores: reading a core after it was set, the register set after an instruction, and what an
instruction at its place does.
-/

namespace Sys2Proof.Machine

/-! ## Cores -/

@[simp] theorem State.luv_setLuv (s : State) (c : Nat) (x : LuvCore) : (s.setLuv c x).luv c = x := by
  simp [State.luv, State.setLuv, Tab.get_set]

theorem State.luv_setLuv_other (s : State) (c d : Nat) (x : LuvCore) (h : d ≠ c) : (s.setLuv c x).luv d = s.luv d := by
  simp [State.luv, State.setLuv, Tab.get_set, h]

theorem State.luv_of_core {s t : State} (h : t.core = s.core) (c : Nat) : t.luv c = s.luv c := by simp [State.luv, h]

@[simp] theorem State.ended_luv (s : State) (c : Nat) : s.ended.luv c = s.luv c := State.luv_of_core (by simp) c

@[simp] theorem State.wr_luv (s : State) (f : Field) (v : Nat) (ix : List Nat) (c : Nat) : (s.wr f v ix).luv c = s.luv c := rfl
@[simp] theorem State.raise_luv (s : State) (f : Field) (ix : List Nat) (c : Nat) : (s.raise f ix).luv c = s.luv c := rfl
@[simp] theorem State.count_luv (s : State) (f : Field) (ix : List Nat) (n c : Nat) : (s.count f ix n).luv c = s.luv c := rfl
@[simp] theorem State.setLuv_rd (s : State) (c : Nat) (x : LuvCore) (f : Field) (ix : List Nat) :
    (s.setLuv c x).rd f ix = s.rd f ix := rfl
@[simp] theorem State.setLuv_word (s : State) (c : Nat) (x : LuvCore) (r : Reg) (ix : List Nat) :
    (s.setLuv c x).word r ix = s.word r ix := rfl

/-! ## The set an instruction sees -/

@[simp] theorem LuvCore.set_withSet (x : LuvCore) (r : LuvSet) : (x.withSet r).set = r := by
  unfold LuvCore.withSet LuvCore.set
  split <;> simp_all

@[simp] theorem LuvCore.inShadow_withSet (x : LuvCore) (r : LuvSet) : (x.withSet r).inShadow = x.inShadow := by
  unfold LuvCore.withSet; split <;> rfl

/-- What `advance` leaves alone. -/
theorem LuvCore.advance_frame (x : LuvCore) : x.advance =
    { x with issued := x.issued + 1, rep := x.advance.rep, pc := x.advance.pc, slots := x.advance.slots,
             target := x.advance.target } := by
  unfold LuvCore.advance
  simp only
  repeat' split
  all_goals rfl

@[simp] theorem LuvCore.set_advance (x : LuvCore) : x.advance.set = x.set := by
  rw [LuvCore.advance_frame]; rfl

@[simp] theorem LuvCore.advance_inShadow (x : LuvCore) : x.advance.inShadow = x.inShadow := by rw [LuvCore.advance_frame]
@[simp] theorem LuvCore.advance_smem (x : LuvCore) : x.advance.smem = x.smem := by rw [LuvCore.advance_frame]
@[simp] theorem LuvCore.advance_kmem (x : LuvCore) : x.advance.kmem = x.kmem := by rw [LuvCore.advance_frame]
@[simp] theorem LuvCore.advance_frames (x : LuvCore) : x.advance.frames = x.frames := by rw [LuvCore.advance_frame]
@[simp] theorem LuvCore.advance_lsq (x : LuvCore) : x.advance.lsq = x.lsq := by rw [LuvCore.advance_frame]
@[simp] theorem LuvCore.advance_stack (x : LuvCore) : x.advance.stack = x.stack := by rw [LuvCore.advance_frame]
@[simp] theorem LuvCore.advance_main (x : LuvCore) : x.advance.main = x.main := by rw [LuvCore.advance_frame]
@[simp] theorem LuvCore.advance_shadow (x : LuvCore) : x.advance.shadow = x.shadow := by rw [LuvCore.advance_frame]

/-- What `withSet` leaves alone. -/
theorem LuvCore.withSet_frame (x : LuvCore) (r : LuvSet) : x.withSet r =
    { x with main := (x.withSet r).main, shadow := (x.withSet r).shadow } := by
  unfold LuvCore.withSet; split <;> rfl

@[simp] theorem LuvCore.withSet_smem (x : LuvCore) (r : LuvSet) : (x.withSet r).smem = x.smem := by rw [LuvCore.withSet_frame]
@[simp] theorem LuvCore.withSet_kmem (x : LuvCore) (r : LuvSet) : (x.withSet r).kmem = x.kmem := by rw [LuvCore.withSet_frame]
@[simp] theorem LuvCore.withSet_frames (x : LuvCore) (r : LuvSet) : (x.withSet r).frames = x.frames := by rw [LuvCore.withSet_frame]
@[simp] theorem LuvCore.withSet_lsq (x : LuvCore) (r : LuvSet) : (x.withSet r).lsq = x.lsq := by rw [LuvCore.withSet_frame]
@[simp] theorem LuvCore.withSet_stack (x : LuvCore) (r : LuvSet) : (x.withSet r).stack = x.stack := by rw [LuvCore.withSet_frame]
@[simp] theorem LuvCore.withSet_pc (x : LuvCore) (r : LuvSet) : (x.withSet r).pc = x.pc := by rw [LuvCore.withSet_frame]
@[simp] theorem LuvCore.withSet_rep (x : LuvCore) (r : LuvSet) : (x.withSet r).rep = x.rep := by rw [LuvCore.withSet_frame]
@[simp] theorem LuvCore.withSet_slots (x : LuvCore) (r : LuvSet) : (x.withSet r).slots = x.slots := by rw [LuvCore.withSet_frame]

/-! ## Instructions at their place -/

/-- An instruction that may execute at its place does so. -/
theorem State.luvStep_issues {s : State} {c : Nat} {i : Instr} (h : s.issues c i = true) (f : State → LuvCore → LuvCore) :
    s.luvStep c i f = s.setLuv c (f s (s.luv c)).advance := by
  simp only [State.issues, Bool.and_eq_true] at h
  simp [State.luvStep, h.1, h.2]

theorem State.luvSet_issues {s : State} {c : Nat} {i : Instr} (h : s.issues c i = true) (f : LuvSet → LuvSet → LuvSet) :
    s.luvSet c i f = s.setLuv c ((s.luv c).withSet (f (s.luvRegs c) (s.luvRegs c).tick)).advance :=
  State.luvStep_issues h _

/-- The register set after an instruction that only works on it. -/
theorem State.luvRegs_ended (s : State) (c : Nat) (x : LuvCore) (r : LuvSet) :
    (s.setLuv c (x.withSet r).advance).ended.luvRegs c = r := by simp [State.luvRegs]

/-- An instruction that writes the register set `f old passed` completes with what holds of the state it retires to. -/
theorem completes_luvSet {s : State} {c : Nat} {i : Instr} {f : LuvSet → LuvSet → LuvSet} {P : State → Prop}
    (he : exec i s = (s.luvSet c i f).finish) (h : s.issues c i = true)
    (hP : P (s.retired c (f (s.luvRegs c) (s.luvRegs c).tick))) : Completes i s P := by
  refine completes_of he ?_
  rw [State.luvSet_issues h]
  exact hP

@[simp] theorem State.retired_luvRegs (s : State) (c : Nat) (r : LuvSet) : (s.retired c r).luvRegs c = r :=
  State.luvRegs_ended s c _ r

/-! ## Registers and flags -/

@[simp] theorem LuvSet.get_setV (r : LuvSet) (n : VReg) (x : BitVec 24) : (r.setV n x).v.get n = x := by
  show (r.v.set n.val x n.isLt)[n.val] = x
  simp

@[simp] theorem LuvSet.get_setW (r : LuvSet) (n : WReg) (x : BitVec 56) : (r.setW n x).w.get n = x := by
  show (r.w.set n.val x n.isLt)[n.val] = x
  simp

theorem LuvSet.get_setW_other (r : LuvSet) (n k : WReg) (x : BitVec 56) (h : k ≠ n) : (r.setW n x).w.get k = r.w.get k := by
  show (r.w.set n.val x n.isLt)[k.val] = r.w[k.val]
  rw [Vector.getElem_set_ne]; intro e; exact h (Fin.ext e.symm)

theorem LuvSet.get_setV_other (r : LuvSet) (n k : VReg) (x : BitVec 24) (h : k ≠ n) : (r.setV n x).v.get k = r.v.get k := by
  show (r.v.set n.val x n.isLt)[k.val] = r.v[k.val]
  rw [Vector.getElem_set_ne]; intro e; exact h (Fin.ext e.symm)

@[simp] theorem LuvSet.setV_fw (r : LuvSet) (n : VReg) (x : BitVec 24) : (r.setV n x).fw = r.fw := rfl
@[simp] theorem LuvSet.setW_fw (r : LuvSet) (n : WReg) (x : BitVec 56) : (r.setW n x).fw = r.fw := rfl
@[simp] theorem LuvSet.flagsZNV_v (r : LuvSet) (x : Int) (b : Bool) : (r.flagsZNV x b).v = r.v := rfl
@[simp] theorem LuvSet.flagsV_v (r : LuvSet) (b : Bool) : (r.flagsV b).v = r.v := rfl
@[simp] theorem LuvSet.flagsV_w (r : LuvSet) (b : Bool) : (r.flagsV b).w = r.w := rfl
@[simp] theorem LuvSet.after_fw (r : LuvSet) (k : Nat) (q : LateReg) (x : Nat) : (r.after k q x).fw = r.fw := rfl

theorem LuvSet.land_fw (r : LuvSet) (l : LateWrite) : (r.land l).fw = r.fw := by
  unfold LuvSet.land; split <;> rfl

theorem LuvSet.landed_fw (l : List LateWrite) (r : LuvSet) : (l.foldl LuvSet.land r).fw = r.fw := by
  induction l generalizing r with
  | nil => rfl
  | cons a l ih => rw [List.foldl_cons, ih, LuvSet.land_fw]

theorem LuvSet.land_w (r : LuvSet) (l : LateWrite) : (r.land l).w = r.w := by
  unfold LuvSet.land; split <;> rfl

theorem LuvSet.landed_w (l : List LateWrite) (r : LuvSet) : (l.foldl LuvSet.land r).w = r.w := by
  induction l generalizing r with
  | nil => rfl
  | cons a l ih => rw [List.foldl_cons, ih, LuvSet.land_w]

/-- A late write lands on no accumulator and on no flag. -/
@[simp] theorem LuvSet.tick_fw (r : LuvSet) : r.tick.fw = r.fw := LuvSet.landed_fw _ _
@[simp] theorem LuvSet.tick_w (r : LuvSet) : r.tick.w = r.w := LuvSet.landed_w _ _

theorem flagBit_getLsbD (i : Nat) (b : Bool) (w : BitVec 16) (k : Nat) (hi : i < 16) :
    (flagBit i b w).getLsbD k = if k = i then b else w.getLsbD k := by
  have h2 : (BitVec.ofNat 16 (2 ^ i)).getLsbD k = decide (k = i) := by
    simp only [BitVec.getLsbD_ofNat, Nat.testBit_two_pow]
    by_cases h : k = i
    · subst h; simp [hi]
    · simp [h, Ne.symm h]
  unfold flagBit
  split
  · next hb =>
    subst hb; simp only [BitVec.getLsbD_or, h2]; by_cases h : k = i <;> simp [h]
  · next hb =>
    simp only [Bool.not_eq_true] at hb
    subst hb; simp only [BitVec.getLsbD_and, BitVec.getLsbD_not, h2]
    by_cases h : k = i
    · subst h; simp
    · by_cases hk : k < 16
      · simp [h, hk]
      · simp [h, hk, BitVec.getLsbD_of_ge _ _ (Nat.not_lt.mp hk)]

/-- The flags that a result sets. -/
theorem LuvSet.flagsZNV_are (r : LuvSet) (x : Int) (v : Bool) : flagsAre r.fw (r.flagsZNV x v).fw x v := by
  unfold flagsAre LuvSet.flagsZNV
  cases v
  all_goals
    simp only [if_true, if_false, Bool.false_eq_true, flagBit_getLsbD _ _ _ _ (show (0 : Nat) < 16 by decide),
      flagBit_getLsbD _ _ _ _ (show (1 : Nat) < 16 by decide), flagBit_getLsbD _ _ _ _ (show (2 : Nat) < 16 by decide),
      flagBit_getLsbD _ _ _ _ (show (3 : Nat) < 16 by decide)]
    refine ⟨by simp, by simp, by simp, by simp, fun k hk => ?_⟩
    repeat rw [if_neg (by omega)]

theorem LuvSet.flagsV_is (r : LuvSet) (v : Bool) : flagVIs r.fw (r.flagsV v).fw v := by
  unfold flagVIs LuvSet.flagsV
  cases v
  all_goals
    simp only [if_true, if_false, Bool.false_eq_true, flagBit_getLsbD _ _ _ _ (show (2 : Nat) < 16 by decide),
      flagBit_getLsbD _ _ _ _ (show (3 : Nat) < 16 by decide)]
    refine ⟨by simp, by simp, fun k h2 h3 => ?_⟩
    simp only [h2, h3, if_false]

end Sys2Proof.Machine
end

