-- ==== Sys2Proof/Tests/Slice0.lean ====
section
/-!
SUPPORT. Tests: a term that each check of well-formedness refuses, words of each Luveren format written out from the
encodings, worked examples of the manual, and for every statement a concrete state and operands that meet its hypotheses.
-/

namespace Sys2Proof.Tests

-- One theorem at a time: checked side by side, the witnesses would hold more memory than the build may have.
set_option Elab.async false

open Sys2Proof.Machine

/-! ## Well-formedness: one term that each check refuses -/

def acc (slot : Nat) : Access := { iface := .pcie, slot := slot }

def mac0 : MacOps := { quad := false, first := .reg 0, second := .reg 0, acc := 0, sAcc := none, load := none }

theorem test_wf_refuses : [
    Instr.registerWrite (acc 8) 0 4 0, .registerWrite (acc 1) 0 3 0, .refLost 5, .refGlitch 1, .linkUp 2, .starved 256,
    .nak 8, .brmWr (acc 1) 256 0, .sapStart 32 0, .rateWindowEnd 0 0, .mdiHalfword 8 none false, .ghostRelease 32767,
    .routeRelease 131072, .delayXfadeEnd 3 0, .xfDone 512, .counterRead (acc 1) 0 64, .pauseExpiry 0 9,
    .tailWrite (acc 1) 0 12 0, .hostTransmit 0 8, .ownerWrite (acc 1) 1024 0, .interrupt 32, .programWrite (acc 1) 0 16384 0,
    .coreMemoryAccess (acc 1) 0 524288 none true, .dmaDone 8, .luvLdia 0 .e 0 131073,
    .luvMac 0 { mac0 with quad := true, second := .quadRegs 0, acc := 1 }, .luvMac 0 { mac0 with quad := true },
    .luvMac 0 { mac0 with second := .quadRegs 0 }, .luvMac 0 { mac0 with sAcc := some (0, .none) },
    .luvMac 0 { mac0 with first := .sWord }, .logFlush (some (acc 8)), .ringReset (some (acc 9)) 0
  ].all (fun i => !i.wf) = true := by decide

theorem test_wf_accepts : [
    Instr.registerWrite (acc 7) 0 8 0, .refLost 4, .refGlitch 3, .linkUp 1, .starved 255, .nak 7, .ghostRelease 32768,
    .routeRelease 131071, .luvLdia 31 .e 7 131072, .luvMac 0 mac0,
    .luvMpy 0 { mac0 with first := .sWord, sAcc := some (7, .byU) }, .logFlush none, .lock
  ].all Instr.wf = true := by decide

/-! ## The states of the tests -/

/-- The state that a command leaves. -/
def after (i : Instr) (s : State) : State :=
  match exec i s with
  | .next t => t
  | _ => s

/-- Audio runs on a device with 4 GiB of DRAM; slot 1 holds an open session of the integrator. -/
def live : State :=
  let s := ((State.reset.wr F.SYS_BOOTSTAT_STATE 1).wr F.SYS_DRAMSIZE_MIB 4096).wr F.SEC_OPEN_STAT_STATE 2 [1]
  let s := s.wr F.SEC_OPEN_STAT_ROLE 3 [1]
  { s with
    time := { started := true, armed := true, block := 100, local3 := 100000000, up3 := 100000000, epoch3 := 100000000, timeSet := true }
    sec := { s.sec with
      ses := [(1, { iface := .pcie, role := 3, unlock := false, openKey := [1] })]
      lc := 3
      fuses := 3 } }

/-- The host of that session. -/
def host : Access := { iface := .pcie, slot := 1 }

/-- Core 0 runs the program of some words, with a core state of its own. -/
def running (x : LuvCore) (words : List Nat) : State :=
  (live.wr F.LDCc_STAT_STATE 1 [0]).setLuv 0 { x with prog := (List.range words.length).zip words }

/-! ## Words of the Luveren formats, from the encodings -/

theorem test_word_mac : decodeLuv 5 0xD0400220 = some (.luvMac 5 { mac0 with first := .reg 1, second := .kBus 4 .up })
    ∧ decodeLuv 5 0xC4000630
      = some (.luvMpy 5 { mac0 with first := .sWord, second := .kBus 4 .up, sAcc := some (0, .up), load := some 0 }) := by
  decide +kernel

theorem test_word_alu : decodeLuv 5 0x52440001 = some (.luvSubw 5 8 8 (.imm 1))
    ∧ decodeLuv 5 0x40201800 = some (.luvMov 5 4 (.reg 3)) := by decide +kernel

theorem test_word_wide : decodeLuv 5 0x71030400 = some (.luvRnd 5 3 0 1) := by decide +kernel

theorem test_word_store : decodeLuv 5 0x64CC0001 = some (.luvSt 5 3 1 (.byImm 1)) := by decide +kernel

theorem test_word_moves : decodeLuv 5 0x25000040 = some (.luvLdi 5 5 0x40)
    ∧ decodeLuv 5 0x31000FF0 = some (.luvLdia 5 .p 2 0xFF0) ∧ decodeLuv 5 0x90224000 = some (.luvMovr 5 (.v 1) (.v 9)) := by
  decide +kernel

theorem test_word_flow : decodeLuv 5 0x10800100 = some (.luvB 5 .ne 0x100) ∧ decodeLuv 5 0x80000010 = some (.luvRep 5 (.imm 16))
    ∧ decodeLuv 5 0x02000002 = some (.luvSync 5 2) ∧ decodeLuv 5 0x04000000 = none ∧ decodeLuv 5 0x00000000 = some (.luvNop 5) := by
  decide +kernel

/-! ## Luveren cores -/

/-- Registers of a running core: v1 is the smallest number, v2 is -1, v3 is 5, and w0 to w3 hold the largest sum. -/
def regs1 : LuvSet :=
  let big : BitVec 56 := 0x7FFFFFFFFFFFFF
  let s := LuvSet.init
  { s with
    v := ((s.v.set 1 0x800000).set 2 0xFFFFFF).set 3 5
    w := Vector.replicate 4 big
    w1 := Vector.replicate 4 big
    w2 := Vector.replicate 4 big
    p := s.p.set 1 0x20000 }

def core1 : LuvCore := { LuvCore.init with main := regs1 }

/-- The program counter stands at instruction `i` alone. -/
def at1 (i : Instr) : State := running core1 [(encodeLuv i).getD 0]

theorem test_add_saturates : ((after (.luvSub 0 4 1 (.reg 3)) (at1 (.luvSub 0 4 1 (.reg 3)))).luvRegs 0).v.get 4 = 0x800000 := by
  decide +kernel

theorem test_abs_of_the_smallest : ((after (.luvAbs 0 4 1) (at1 (.luvAbs 0 4 1))).luvRegs 0).v.get 4 = 0x7FFFFF := by decide +kernel

theorem test_mpy_shifts_nothing : ((after (.luvMpy 0 { mac0 with first := .reg 1, second := .reg 2 })
    (at1 (.luvMpy 0 { mac0 with first := .reg 1, second := .reg 2 }))).luvRegs 0).w.get 0 = 0x800000 := by decide +kernel

theorem test_witness_LuverenArithmetic : [
    Instr.luvAdd 0 4 1 (.reg 2), .luvSub 0 4 1 (.imm 7), .luvNeg 0 4 1, .luvAbs 0 4 1, .luvAsl 0 4 1 (.imm 31),
    .luvAddw 0 4 1 (.reg 2), .luvSubw 0 4 1 (.imm 255), .luvAnd 0 4 1 (.reg 2), .luvOr 0 4 1 (.reg 2), .luvXor 0 4 1 (.reg 2),
    .luvMin 0 4 1 (.reg 2), .luvMax 0 4 1 (.reg 2), .luvNot 0 4 1, .luvAsr 0 4 1 (.reg 3), .luvLsr 0 4 1 (.imm 0)
  ].all (fun i => (at1 i).issues 0 i) = true := by decide +kernel

theorem test_witness_LuverenMoves : [
    Instr.luvLdi 0 4 0xFFFFFF, .luvMov 0 4 (.reg 1), .luvCmp 0 1 (.reg 2), .luvSel 0 4 1 2 .eq, .luvMovr 0 (.v 4) (.v 1),
    .luvMovr 0 (.v 4) .fw, .luvMovr 0 .fw (.v 1), .luvLdia 0 .e 7 131072, .luvMovr 0 (.p 3) (.v 1), .luvMovr 0 (.e 3) (.v 2),
    .luvModi 0 1 0x3FFFF
  ].all (fun i => (at1 i).issues 0 i) = true := by decide +kernel

theorem test_witness_LuverenWide : [
    Instr.luvLda 0 3 1, .luvMova 0 3 1, .luvClr 0 15, .luvAdda 0 3 1, .luvSuba 0 3 1, .luvSha 0 3 31, .luvRnd 0 4 3 1,
    .luvTrn 0 4 3 1, .luvMpy 0 { mac0 with first := .reg 1, second := .reg 1 }, .luvMac 0 { mac0 with acc := 3 },
    .luvMsu 0 { mac0 with first := .reg 2, second := .reg 1 }
  ].all (fun i => (at1 i).issues 0 i) = true ∧ (15 : BitVec 4).getLsbD (3 : WReg).val = true := by decide +kernel

theorem test_witness_RuleRounding :
    (at1 (.luvRnd 0 4 3 31)).issues 0 (.luvRnd 0 4 3 31) = true ∧ (at1 (.luvTrn 0 4 3 32)).issues 0 (.luvTrn 0 4 3 32) = true
    ∧ (at1 (.luvStr 0 0 3 .none 7)).issues 0 (.luvStr 0 0 3 .none 7) = true
    ∧ (((at1 (.luvStr 0 0 3 .none 7)).luvRegs 0).p.get 0).toNat < 0x8000 := by decide +kernel

theorem test_witness_LuverenLoadsAndStores :
    (at1 (.luvLd 0 4 0 .byU)).issues 0 (.luvLd 0 4 0 .byU) = true ∧ (((at1 (.luvLd 0 4 0 .byU)).luvRegs 0).p.get 0).toNat < 0x20000
    ∧ (at1 (.luvSt 0 1 0 .none)).issues 0 (.luvSt 0 1 0 .none) = true
    ∧ (at1 (.luvStr 0 0 3 .none 7)).issues 0 (.luvStr 0 0 3 .none 7) = true
    ∧ (((at1 (.luvStr 0 0 3 .none 7)).luvRegs 0).p.get 0).toNat < 0x8000
    ∧ (at1 (.luvSt 0 1 1 .none)).issues 0 (.luvSt 0 1 1 .none) = true
    ∧ (((at1 (.luvSt 0 1 1 .none)).luvRegs 0).p.get 1).toNat = 0x20000
    ∧ ((at1 (.luvSt 0 1 1 .none)).luv 0).lsq.length < 4 := by decide +kernel

/-- A load of DRAM. -/
def load1 : LsqEntry := { addr := 0x400000000, store := none, dest := 4, shadow := false }

/-- A core in its handler, with a return address. -/
def handler (words : List Nat) : State := running { core1 with inShadow := true, ret := 9 } words

theorem test_witness_LuverenFlow : [
    Instr.luvNop 0, .luvB 0 .al 0x100, .luvB 0 .eq 0x100, .luvCall 0 .al 0x100, .luvRet 0 .eq, .luvRep 0 (.imm 0), .luvSync 0 0
  ].all (fun i => (at1 i).issues 0 i && decide (((at1 i).luv 0).rep < 2)) = true
    ∧ (running { core1 with slots := 1, target := some 3 } [0]).issues 0 (.luvNop 0) = true
    ∧ (running { core1 with rep := 2 } [0]).issues 0 (.luvNop 0) = true
    ∧ (running { core1 with lsq := [load1] } [(encodeLuv (.luvSync 0 0)).getD 0]).issues 0 (.luvSync 0 0) = true
    ∧ (0 : Fin 4).val < ((running { core1 with lsq := [load1] } [(encodeLuv (.luvSync 0 0)).getD 0]).luv 0).lsq.length
    ∧ (running { core1 with stack := [7] } [(encodeLuv (.luvRet 0 .al)).getD 0]).issues 0 (.luvRet 0 .al) = true
    ∧ (handler [(encodeLuv (.luvRti 0)).getD 0]).issues 0 (.luvRti 0) = true
    ∧ ((at1 (.luvSync 0 0)).luv 0).lsq.length = 0 := by decide +kernel

/-- A load of DRAM waits in the core's queue, then a store. -/
def queued (lsq : List LsqEntry) : State := running { core1 with lsq := lsq } []
def store1 : LsqEntry := { addr := 0x400000000, store := some 5, dest := 0, shadow := false }
def timer1 : State := live.wr F.LDCc_TIMER_COUNT 2 [31]
def taking : State :=
  (((live.wr F.LDCc_STAT_STATE 2 [0]).wr F.LDCc_IRQ_PEND_DOORBELL 1 [0]).wr F.LDCc_IRQ_EN_EN 0xFF [0]).setLuv 0
    { core1 with main := { regs1 with fw := 0x100 } }

theorem test_witness_LuverenCoreEvents :
    (at1 (.luvWaitblk 0)).issues 0 (.luvWaitblk 0) = true ∧ ((at1 (.luvWaitblk 0)).luv 0).lsq = []
    ∧ (running core1 [0x04000000]).luvRuns 0 = true
    ∧ ((running core1 [0x04000000]).luv 0).fetch 0 ((running core1 [0x04000000]).luv 0).pc = none
    ∧ taking.luvTakes 0 = true
    ∧ 31 < timer1.coreCount ∧ timer1.rd F.LDCc_TIMER_COUNT [31] ≠ 0
    ∧ timer1.elapsed (timer1.luv 31).timer3 (timer1.rd F.LDCc_TIMER_COUNT [31] * 1000000 / 204800) = true
    ∧ ((queued [load1, store1]).luv 0).lsq = [load1, store1] ∧ load1.store = none
    ∧ (queued [load1, store1]).fab.drains.contains 16 = false ∧ (queued [load1, store1]).lsqTarget load1.addr = .dram 0
    ∧ ((queued [store1]).luv 0).lsq = [store1] ∧ store1.store = some 5 := by decide +kernel

theorem test_witness_RuleFabricError :
    ((queued [{ load1 with addr := 0 }]).luv 0).lsq = [{ load1 with addr := 0 }] ∧ load1.store = none
    ∧ (queued [{ load1 with addr := 0 }]).fab.drains.contains 16 = false
    ∧ (queued [{ load1 with addr := 0 }]).lsqTarget 0 = .fault .path
    ∧ ((queued [{ store1 with addr := 0x1000000000 }]).luv 0).lsq = [{ store1 with addr := 0x1000000000 }]
    ∧ (queued [{ store1 with addr := 0x1000000000 }]).lsqTarget 0x1000000000 = .fault .unmapped
    ∧ store1.store.isSome = true := by decide +kernel

theorem test_witness_LuverenRegisterInstructionFrame : (at1 (.luvNop 0)).issues 0 (.luvNop 0) = true
    ∧ exec (.luvNop 0) (at1 (.luvNop 0)) = .next (after (.luvNop 0) (at1 (.luvNop 0)))
    ∧ (at1 (.luvMova 0 3 1)).issues 0 (.luvMova 0 3 1) = true ∧ (at1 (.luvNop 0)).waits 0 (.luvNop 0) = false
    ∧ (at1 (.luvWaitblk 0)).issues 0 (.luvWaitblk 0) = true ∧ (at1 (.luvWaitblk 0)).waits 0 (.luvWaitblk 0) = false
    ∧ (at1 (.luvSt 0 1 1 .none)).issues 0 (.luvSt 0 1 1 .none) = true ∧ (at1 (.luvSt 0 1 1 .none)).waits 0 (.luvSt 0 1 1 .none) = false :=
  ⟨by decide, rfl, by decide, by decide, by decide, by decide, by decide, by decide⟩

/-! ## Clock and time -/

def standby : State := live.wr F.SYS_STAT_PWR 2

theorem test_witness_ClockTick : standby.pwr.off = false ∧ standby.pwr.held = false ∧ standby.pwr.crit = false
    ∧ standby.rd F.SYS_STAT_PWR = 2 ∧ standby.pwr.exit = false ∧ standby.pwr.goal = none ∧ standby.pwr.ramp = 0
    ∧ standby.time.started = true ∧ standby.time.timeSet = true
    ∧ standby.clk.pps = none ∧ (∀ p, p < 2 → (standby.netPort p).txq = [])
    ∧ live.pwr.off = false ∧ live.pwr.held = false ∧ live.pwr.crit = false ∧ live.audio = true := by decide +kernel

/-- What the tick of a live device passes through. -/
def timed : State := (live.recordLocked.finishBlock.1.advanceTime.clockTick 0).startAudio.clockOutputs
def powered : State := (((timed.ptpTick 0).ptpTick 1).netTick).pwrTick

theorem test_witness_ClockTick_audio : timed.awake = true ∧ powered.running = true ∧ powered.awake = true
    ∧ powered.bypassTick.tstTick.audio = true := by decide +kernel

theorem test_tick_in_standby : (after (.blockTick 0) standby).time.block = 101 := by decide +kernel

/-- Reference `n` is enabled, stands at QUAL `q`, and holds `r`. -/
def refState (n q : Nat) (r : RefState) : State :=
  (((live.wr F.CLK_REFn_CFG_EN 1 [n]).wr F.CLK_REFn_CFG_NOM 1 [n]).wr F.CLK_REFn_STAT_QUAL q [n]).setRef n r

theorem test_witness_ClockReferences :
    (refState 4 4 {}).refOn 4 = true ∧ (refState 4 4 {}).qual 4 ≠ 0 ∧ ((refState 4 4 {}).ref 4).hold = false
    ∧ ((refState 4 4 {}).ref 4).lost = false
    ∧ ((refState 4 4 {}).offsetOf 4 10000000).natAbs = (refState 4 4 {}).rd F.CLK_QUAL_RANGE * 600000
    ∧ (refState 4 4 {}).rd F.CLK_QUAL_RANGE * 600000 < ((refState 4 4 {}).offsetOf 4 (-10000001)).natAbs
    ∧ (refState 3 1 {}).refOn 3 = true ∧ ((refState 3 1 {}).refNom 3).isSome = true
    ∧ (refState 0 3 { seen := true }).refOn 0 = true ∧ ((refState 0 3 { seen := true }).ref 0).lost = false
    ∧ ((refState 0 3 { seen := true }).ref 0).seen = true
    ∧ (refState 2 1 { hold := true }).edgeRef 2 = true ∧ (refState 2 1 { hold := true }).refNom 2 = some 96000
    ∧ (1 : Nat) ≠ (refState 3 1 {}).rd F.CLK_REFn_CFG_SAP_PORT [3] ∧ (refState 3 1 {}).edgeRef 3 = true
    ∧ (refState 3 1 {}).rd F.CLK_REFn_CFG_SAP_PORT [3] = 0
    ∧ periodGood 96000 10000000 = true ∧ periodGood 96000 20000000 = false
    ∧ ((refState 2 1 { hold := true }).ref 2).srcBad = false ∧ ((refState 2 1 { hold := true }).ref 2).hold = true
    ∧ ((refState 2 1 { hold := true }).ref 2).fbad = false
    ∧ (refState 1 2 { passed := true, clean := 180000 }).qual 1 = 2
    ∧ ((refState 1 2 { passed := true, clean := 180000 }).ref 1).passed = true
    ∧ (refState 1 2 { passed := true, clean := 180000 }).wtrBlocks
      ≤ ((refState 1 2 { passed := true, clean := 180000 }).ref 1).clean := by decide +kernel

def pulling : State := { live.wr F.CLK_STAT_STATE 1 with clk := { inWin := 3001 } }
def holding : State := { live.wr F.CLK_STAT_STATE 3 with clk := { hoMs := some 1000, hoTicks := 2999 } }
def member : State :=
  { live.wr F.CAS_CFG_EN 1 with time := { started := false, armed := true } }

theorem test_witness_ClockStates :
    pulling.rd F.CLK_STAT_STATE = 1 ∧ pulling.blocksPerSec + 1 = pulling.clk.inWin
    ∧ holding.clk.hoMs = some 1000 ∧ holding.rd F.CLK_STAT_STATE = 3 ∧ 1000 * 3000000 = (holding.clk.hoTicks + 1) * holding.block3
    ∧ member.on F.CAS_CFG_EN = true ∧ member.isHead = false ∧ member.time.armed = true ∧ member.time.started = false := by decide +kernel

/-! ## PTP -/

/-- Port `p` in a port state with an engine state. -/
def ptpState (p v : Nat) (x : PtpPort) : State :=
  (((live.wr F.PTP_CTRL_MODE 1 [p]).wr F.PTP_STAT_PORT_STATE v [p]).wr F.PTP_PDMAX_MAX 100 [p]).setPtpPort p x

def slave : PtpPort := { parent := some (7, 1), lastSync := some (0, 65536, 0) }

def ptpMsg (type : Nat) : PtpMsg :=
  { version := 2, minorVersion := 1, msgType := type, management := false, lengthBad := false, domain := 0, sdoId := 0, srcId := 7
    srcPort := 1, seq := 5, twoStep := true, correction := 0, time := 30, reqId := 0, reqPort := 1, ann := none }

/-- An answer to port 0's own request. -/
def ptpAnswer (type : Nat) (s : State) : PtpMsg := { ptpMsg type with reqId := s.ptpId 0 }

def asked : PendingDelay := { seq := 5, at3 := 98000000, t1 := 65536, peer := false }
def peerAsked : PendingDelay := { seq := 5, at3 := 98000000, t1 := 0, peer := true, responses := 1, t2 := 65536, t4 := 40 * 65536 }
def asking : State := ptpState 0 9 { slave with exchanges := [asked] }
def peerAsking0 : State := ptpState 0 9 { slave with exchanges := [{ peerAsked with responses := 0 }] }
def peerAsking : State := ptpState 0 9 { slave with exchanges := [peerAsked] }

theorem test_witness_PtpMeasurements_sync :
    (ptpState 1 8 slave).ptpRuns 1 = true ∧ ptpMalformed (ptpMsg 0) = false
    ∧ (ptpState 1 8 slave).ptpForeignDomain 1 (ptpMsg 0) = false ∧ (ptpState 1 8 slave).fromParent 1 (ptpMsg 0) = true
    ∧ (ptpMsg 0).twoStep = true ∧ ({ ptpMsg 0 with twoStep := false } : PtpMsg).twoStep = false
    ∧ ((ptpState 1 9 { slave with pendSync := some ⟨5, 0, 1, 0⟩ }).ptpPort 1).pendSync = some ⟨5, 0, 1, 0⟩
    ∧ (ptpState 1 9 { slave with pendSync := some ⟨5, 0, 1, 0⟩ }).fromParent 1 (ptpMsg 8) = true := by decide +kernel

theorem test_witness_PtpMeasurements_delay :
    asking.ptpRuns 0 = true ∧ ptpMalformed (ptpAnswer 9 asking) = false ∧ asking.ptpForeignDomain 0 (ptpAnswer 9 asking) = false
    ∧ asking.exchangeOf 0 (ptpAnswer 9 asking) = some asked ∧ asked.done = false ∧ asked.peer = false
    ∧ asking.fromParent 0 (ptpAnswer 9 asking) = true ∧ (asking.ptpPort 0).lastSync = some (0, 65536, 0)
    ∧ peerAsking0.exchangeOf 0 (ptpAnswer 3 peerAsking0) = some { peerAsked with responses := 0 }
    ∧ (ptpAnswer 3 peerAsking0).twoStep = true
    ∧ peerAsking.exchangeOf 0 (ptpAnswer 10 peerAsking) = some peerAsked :=
  ⟨by decide, by decide, by decide, by simp [State.exchangeOf, ptpAnswer, ptpMsg]; decide, rfl, rfl, by decide, by decide,
    by simp [State.exchangeOf, ptpAnswer, ptpMsg]; decide, rfl, by simp [State.exchangeOf, ptpAnswer, ptpMsg]; decide⟩

theorem test_witness_PtpMeasurements_fits :
    0 ≤ roundDiv ((65536 - 65536) + ((30 : Int) * 65536 - 0) - (0 + asking.rdS F.PTP_ASYM_ASYM [0]) - 0) 2
    ∧ roundDiv ((65536 - 65536) + ((30 : Int) * 65536 - 0) - (0 + asking.rdS F.PTP_ASYM_ASYM [0]) - 0) 2
      ≤ (asking.rd F.PTP_PDMAX_MAX [0] : Int) * 65536
    ∧ 0 ≤ roundDiv ((peerAsked.t4 - peerAsked.t1) - ((30 : Int) * 65536 - peerAsked.t2) - peerAsked.corr - 0) 2
    ∧ roundDiv ((peerAsked.t4 - peerAsked.t1) - ((30 : Int) * 65536 - peerAsked.t2) - peerAsked.corr - 0) 2
      ≤ (peerAsking.rd F.PTP_PDMAX_MAX [0] : Int) * 65536 := by decide +kernel

def annData : AnnounceData :=
  { prio1 := 128, clockClass := 6, accuracy := 33, variance := 0, prio2 := 128, gmId := 9, steps := 0, timeBase := 0, pathTrace := [] }

/-- Fifteen minutes later, with everything still open. -/
def longSince : State :=
  let s := ptpState 0 4 { pendSync := some ⟨5, 100000000, 1, 0⟩, exchanges := [asked], missRun := 14, pdHold := some 100000000 }
  { s with time := { s.time with up3 := 2700100000000 } }

theorem test_witness_PtpTimeouts :
    (ptpState 0 4 {}).ptpRuns 0 = true ∧ (ptpState 0 4 {}).isBoundary = false ∧ (ptpState 0 4 {}).portState 0 = 4
    ∧ ((ptpState 0 4 {}).ptpPort 0).parent = none
    ∧ longSince.elapsed (longSince.announceHeard3 0) (3 * longSince.annSec3 0) = true ∧ longSince.portState 0 = 4
    ∧ longSince.isBoundary = false ∧ longSince.ptpRuns 0 = true ∧ (longSince.ptpPort 0).parent = none
    ∧ (longSince.ptpPort 0).pdHold = some 100000000 ∧ longSince.elapsed 100000000 900000000000 = true
    ∧ (longSince.ptpPort 0).pendSync = some ⟨5, 100000000, 1, 0⟩ ∧ longSince.elapsed 100000000 (longSince.syncSec3 0) = true
    ∧ (longSince.ptpPort 0).exchanges.reverse.find? (fun y => !y.done && longSince.elapsed y.at3 3000000000) = some asked
    ∧ (longSince.ptpPort 0).missRun < 15 := by decide +kernel

/-- An Announce whose sender and grandmaster are not the port's own clock is acceptable. -/
theorem test_witness_PtpTimeouts_announce (h : (ptpState 0 4 {}).ptpId 0 ≠ 9) (h7 : (ptpState 0 4 {}).ptpId 0 ≠ 7) :
    (ptpState 0 4 {}).announceBad 0 { ptpMsg 11 with ann := some annData } annData = false := by
  simp [State.announceBad, annData, ptpMsg, h.symm, h7.symm]

def peerState (p v : Nat) : State := (ptpState p v {}).wr F.PTP_CTRL_DELAY 1 [p]

theorem test_witness_PtpTransmissions :
    (ptpState 1 6 {}).ptpRuns 1 = true ∧ ptpMalformed (ptpMsg 1) = false ∧ (ptpState 1 6 {}).ptpForeignDomain 1 (ptpMsg 1) = false
    ∧ (ptpState 1 6 {}).portState 1 = 6 ∧ (ptpState 1 6 {}).peerDelay 1 = false
    ∧ (peerState 0 4).ptpRuns 0 = true ∧ (peerState 0 4).ptpForeignDomain 0 (ptpMsg 2) = false ∧ (peerState 0 4).peerDelay 0 = true
    ∧ ((peerState 0 4).ptpPort 0).pdHold = none ∧ ((peerState 0 4).ptpPort 0).req3 = none
    ∧ (ptpState 1 6 { sync3 := some 0, ann3 := some 0 }).dueSince (some 0) ((ptpState 1 6 {}).syncSec3 1) = false
    ∧ longSince.dueSince (some 100000000) (longSince.annSec3 0) = true ∧ ((ptpState 1 6 {}).ptpPort 1).ann3 = none
    ∧ ((ptpState 1 6 {}).ptpPort 1).sync3 = none ∧ (ptpState 1 9 {}).portState 1 = 9 ∧ (ptpState 1 9 {}).peerDelay 1 = false := by
  decide +kernel

/-! ## Network ports -/

def linked (p : Nat) : State := (live.wr F.NP_CFG_EN 1 [p]).wr F.NP_STAT_LINK 1 [p]

def frame1 (payload : FramePayload) : Frame :=
  { dst := 2 ^ 48 - 1, src := 5, tags := [], len := 64, fcsGood := true, codeErr := false, payload := payload
    bytes := List.replicate 60 7, stamp := 0 }

def heldFrame1 : State := { linked 1 with tst := { held := [(1, (frame1 (.other 5), 100000000))] } }
def heldLong : State := { heldFrame1 with time := { heldFrame1.time with up3 := 102000000 } }
def paused0 : State := live.setNetPort 0 { NetPort.init with paused := [(8, 100500000)] }

theorem test_witness_NetLinkAndTimers :
    (live.wr F.NP_CFG_EN 1 [1]).on F.NP_CFG_EN [1] = true ∧ (live.wr F.NP_CFG_EN 1 [1]).linkUp 1 = false ∧ (linked 1).linkUp 1 = true
    ∧ heldLong.tst.held.lookup 1 = some (frame1 (.other 5), 100000000) ∧ heldLong.elapsed 100000000 3000000 = true
    ∧ heldFrame1.elapsed 100000000 3000000 = false ∧ (paused0.netPort 0).paused.lookup 8 = some 100500000
    ∧ paused0.elapsed 100500000 0 = true := by decide +kernel

/-! ## The present moment, which is open (log entry 5) -/

theorem upNow_ge (s : State) : s.time.up3 ≤ s.upNow3 := Nat.le_add_right _ _

theorem upNow_lt (s : State) (h : 0 < s.block3) : s.upNow3 < s.time.up3 + s.block3 := by
  have hm := Nat.mod_lt (Config.free .timeInBlock ((s.fresh : Int) :: [])) h
  have he : ((s.block3 : Int) - 1 - 0 + 1).toNat = s.block3 := by omega
  simp only [State.upNow3, State.drawIn, Config.freeIn, he, zero_add, Int.toNat_natCast]
  omega

/-- A transmitter on which nothing has been sent is idle. -/
theorem idle_of {s : State} {p : Nat} (hl : s.linkUp p = true) (hq : (s.netPort p).txq = []) (hf : (s.netPort p).free = 0)
    (hp : s.prioHeld p 0 = false) : s.txIdle p = true := by
  simp [State.txIdle, hl, hq, hf, hp]

/-- Its slot for a host frame is the present moment. -/
theorem slot_of {s : State} {p : Nat} (hq : (s.netPort p).txq = []) (hf : (s.netPort p).free = 0) (hb : 0 < s.block3) :
    s.hostSlot p = some (50 * s.upNow3) := by
  have hn : s.txNext p = none := by simp [State.txNext, hq]
  have := upNow_lt s hb
  simp only [State.hostSlot, hn, hf, Nat.zero_max, Bool.false_or]
  rw [if_neg (by simp; omega)]

/-- Port 0 in 802.1AS hears a PTP frame. -/
def ptpHeard : Frame := { frame1 (.ptpL2 (ptpMsg 0)) with dst := 0x0180C200000E }
def ptpPortState : State := ((linked 0).wr F.PTP_CTRL_MODE 1 [0]).wr F.PTP_CTRL_PROFILE 1 [0] |>.wr F.PTP_STAT_PORT_STATE 4 [0]

theorem test_witness_NetFrameReceive :
    (linked 0).linkUp 0 = true ∧ frameDrop { frame1 (.other 5) with fcsGood := false } ((linked 0).lengthLimit 0 0) = some 14
    ∧ frameDrop { frame1 (.other 5) with len := 63 } ((linked 0).lengthLimit 0 0) = some 15
    ∧ frameDrop { frame1 (.other 5) with len := 1523 } ((linked 0).lengthLimit 0 0) = some 17
    ∧ ptpPortState.linkUp 0 = true ∧ frameDrop ptpHeard (ptpPortState.lengthLimit 0 0) = none
    ∧ ptpPortState.rd F.SYS_STAT_PWR ≠ 2 ∧ ptpPortState.frmMode 0 = 0
    ∧ ptpPortState.vlanAccepts 0 ptpHeard = true ∧ ptpPortState.addressed 0 ptpHeard = true
    ∧ vlanCount ptpHeard.tags = 0 ∧ ptpPortState.ptpFrame 0 ptpHeard = some (ptpMsg 0) ∧ ptpPortState.ptpRuns 0 = true
    ∧ (ptpPortState.ptpPort 0).rxq.length < 32 := by decide +kernel

/-- A descriptor: buffer address, then its words 1 to 3. -/
def descBytes (w0 w1 w2 w3 : Nat) : List Byte := leBytes 4 w0 ++ leBytes 4 w1 ++ leBytes 4 w2 ++ leBytes 4 w3

/-- Queue 3 of port 0 receives: its ring at the start of DRAM has one free descriptor, whose buffer lies at 1 MiB. -/
def receiving : State :=
  let s := ((((linked 0).wr F.NP_HQ_VLANq_RX_EN 1 [0, 3]).wr F.NP_HQ_VLANq_UNTAGGED 1 [0, 3]).wr F.NP_HRr_CFG_SIZE_LOG2 4 [0, 7])
  ((s.wr F.NP_HRr_CFG_ADDR_HI 4 [0, 7]).wr F.NP_HRr_TAIL_TAIL 1 [0, 7]).dramWrite 0
    (descBytes 0x100000 (60 * 65536 + 4) 0 0x80000000)

/-- A memory read that ends within DRAM answers. -/
theorem dram_reads (s : State) (off n k : Nat) (h : s.dramBytes = 4294967296) (hn : n ≤ k) (hk : off + k ≤ 4294967296) (hk' : off < 17179869184) :
    ∃ bs, s.memRead (dramBase + off) n = .ok bs := by
  have h1 : s.memTarget (dramBase + off) n = .dram off := by
    unfold State.memTarget
    rw [if_pos ⟨by omega, by unfold dramBase hostBase; omega⟩, if_pos (by omega)]
    simp
  exact ⟨s.dramRead off n, by simp [State.memRead, h1]⟩

theorem test_witness_NetHostFrames_receive :
    receiving.linkUp 0 = true ∧ frameDrop (frame1 (.other 5)) (receiving.lengthLimit 0 0) = none ∧ receiving.awake = true
    ∧ receiving.fab.drains.contains (queueMaster 0) = false ∧ receiving.frmMode 0 = 0
    ∧ receiving.vlanAccepts 0 (frame1 (.other 5)) = true ∧ receiving.addressed 0 (frame1 (.other 5)) = true
    ∧ receiving.hostQueue 0 (frame1 (.other 5)) = some 3 ∧ (frame1 (.other 5)).bytes.length ≤ 9600
    ∧ receiving.rd F.NP_HRr_CFG_SIZE_LOG2 [0, 7] ≤ 12 ∧ receiving.ringHead 0 7 ≠ receiving.ringTail 0 7
    ∧ receiving.memRead (receiving.ringEntry 0 7 0) 16 = .ok (descBytes 0x100000 (60 * 65536 + 4) 0 0x80000000)
    ∧ descWord (descBytes 0x100000 (60 * 65536 + 4) 0 0x80000000) 3 / 2 ^ 31 ≠ 0
    ∧ (frame1 (.other 5)).bytes.length = descWord (descBytes 0x100000 (60 * 65536 + 4) 0 0x80000000) 1 / 65536 := by decide +kernel

theorem test_witness_NetHostFrames_buffer : ∀ n, n ≤ 9600 →
    ∃ bs, receiving.memRead (descWord (descBytes 0x100000 (60 * 65536 + 4) 0 0x80000000) 1 % 16 * 2 ^ 32
      + descWord (descBytes 0x100000 (60 * 65536 + 4) 0 0x80000000) 0) n = .ok bs := by
  intro n hn
  have h : descWord (descBytes 0x100000 (60 * 65536 + 4) 0 0x80000000) 1 % 16 * 2 ^ 32
      + descWord (descBytes 0x100000 (60 * 65536 + 4) 0 0x80000000) 0 = dramBase + 0x100000 := by decide +kernel
  rw [h]
  exact dram_reads receiving 0x100000 n 9600 (by decide) hn (by decide) (by decide)

/-- Queue 2 of port 1 sends a frame of 60 octets from 1 MiB. -/
def sending : State :=
  let s := (((linked 1).wr F.NP_HQ_VLANq_TX_EN 1 [1, 2]).wr F.NP_HRr_CFG_SIZE_LOG2 12 [1, 2]).wr F.NP_HRr_CFG_ADDR_HI 4 [1, 2]
  (s.wr F.NP_HRr_TAIL_TAIL 1 [1, 2]).dramWrite 0 (descBytes 0x100000 4 60 0x80000000)

def flying1 : TxFrame := { desc := 0x400000000, ident := 0, stampWanted := false, bytes := List.replicate 60 0, tags := 0 }
def sent : State := sending.setNetPort 1 { sending.netPort 1 with fly := [(2, [flying1])] }

theorem test_witness_NetHostFrames_transmit :
    sending.awake = true ∧ sending.fab.drains.contains (queueMaster 1) = false ∧ sending.on F.NP_HQ_VLANq_TX_EN [1, 2] = true
    ∧ sending.ringHead 1 2 ≠ sending.ringTail 1 2
    ∧ sending.memRead (sending.ringEntry 1 2 0) 16 = .ok (descBytes 0x100000 4 60 0x80000000)
    ∧ descWord (descBytes 0x100000 4 60 0x80000000) 3 / 2 ^ 31 ≠ 0 ∧ descWord (descBytes 0x100000 4 60 0x80000000) 2 % 65536 = 60
    ∧ sending.memRead 0x400100000 60 = .ok (List.replicate 60 0) ∧ sending.linkUp 1 = true
    ∧ sending.buildFrame 1 2 (List.replicate 60 0) = .ok (List.replicate 60 0, false)
    ∧ Tab.get [] (sent.netPort 1).fly 2 = [flying1] ∧ sent.rd F.NP_HRr_CFG_SIZE_LOG2 [1, 2] = 12
    ∧ (sent.netPort 1).txq = [] ∧ sent.hostTurn 1 = some 2 := by decide +kernel

theorem test_witness_NetHostFrames_slot : ∃ start, sent.hostSlot 1 = some start :=
  ⟨_, slot_of (by decide) (by decide) (by decide)⟩

/-- Fifteen seconds have passed since the reset. -/
def late5 (s : State) : State := { s with time := { s.time with up3 := 15000000000 } }

def responding : State :=
  let s := (((linked 0).wr F.NP_RESP_ARP_EN 1 [0]).wr F.NP_RESP_ICMP_EN 1 [0]).wr F.NP_RESP_IGMP_EN 1 [0]
  (s.wr F.NP_RESP_ICMP_RATE 1 [0]).setNetPort 0
    { NetPort.init with gratuitous := 1, arpPend := [(9, 3, 98000000)], queryPending := true, reports := [(0xE0000101, 1, none)] }

/-- The shared address is still to be announced, and the medium is occupied. -/
def announcing : State := ((responding.wr F.RED_CFG_VIP_EN 1).wr F.RED_STAT_CLAIM_OUT 1).setNetPort 0 { NetPort.init with vip := 3, vip3 := some 0 }
def busy : State := responding.setNetPort 0 { NetPort.init with free := 50 * 101000000 }

theorem test_witness_NetResponders :
    responding.responder 0 F.NP_RESP_ARP_EN = true ∧ ({ senderMac := 1, senderIp := 9, targetIp := 0 } : ArpPkt).targetIp = responding.rd F.NP_IPV4_V [0]
    ∧ 0 < (responding.netPort 0).gratuitous ∧ responding.dueSince (responding.netPort 0).grat3 3000000000 = true
    ∧ (responding.netPort 0).vip = 0 ∧ (responding.netPort 0).arpPend.lookup 9 = some (3, 98000000)
    ∧ (late5 responding).elapsed 98000000 3000000000 = true
    ∧ 0 < (announcing.netPort 0).vip ∧ (late5 announcing).dueSince (some 0) 3000000000 = true ∧ announcing.answersVip = true
    ∧ (announcing.netPort 0).gratuitous = 0
    ∧ responding.responder 0 F.NP_RESP_ICMP_EN = true
    ∧ ((responding.netPort 0).echoes3.filter fun t => decide (responding.time.up3 < t + 3000000000)).length
      < responding.rd F.NP_RESP_ICMP_RATE [0]
    ∧ responding.responder 0 F.NP_RESP_IGMP_EN = true ∧ (responding.netPort 0).queryPending = true
    ∧ (responding.netPort 0).reports.lookup 0xE0000101 = some (1, none) ∧ responding.dueSince none 3000000000 = true := by
  decide +kernel

theorem test_witness_NetResponders_moment : responding.txIdle 0 = true ∧ announcing.txIdle 0 = true ∧ (late5 responding).txIdle 0 = true
    ∧ 50 * busy.upNow3 < (busy.netPort 0).free := by
  refine ⟨idle_of (by decide) (by decide) (by decide) (by decide), idle_of (by decide) (by decide) (by decide) (by decide),
    idle_of (by decide) (by decide) (by decide) (by decide), ?_⟩
  have h := upNow_lt busy (by decide)
  have h1 : busy.time.up3 + busy.block3 = 101000000 := by decide
  have h2 : (busy.netPort 0).free = 50 * 101000000 := by decide
  omega

/-! ## Streams -/

def rxCfg1 : RxCfg :=
  { rtp := false, ports := 1, fmt := 1, rate := 7, ch := 2, grp := none, ident := 77, dst := 0, src := 0, tagged := false, vid := 0, udp := 0
    base := 0, mask := 0, pres := 0, rtpOfs := 0, xfade := 0, depth := 8 }

def rxId1 : RxId := { cfg := rxCfg1, fade := { g0 := 1048576, g1 := 1048576 } }

/-- Context 255 receives on port 0. -/
def listening (i : RxId) : State := (linked 0).setRxIds 255 [i]

/-- A packet of one frame for it, presented in block 108. -/
def packet1 : StreamPkt :=
  { aaf := true, vlan := none, dstIp := 0, srcIp := 0, udp := 0, version := 0, extras := false, pt := 0, ssrc := 0, subtype := 2, streamId := 77
    format := 3, nsr := 7, bitDepth := 24, channels := 2, seq := 256, time := 36000000, payloadLen := 6, frames := [[1, -1]] }

theorem test_witness_StreamPacket :
    (listening rxId1).audio = true ∧ (listening rxId1).linkUp 0 = true ∧ (listening rxId1).rxMatch 0 packet1 = some 255
    ∧ (listening rxId1).rxIds 255 = [rxId1] ∧ rxCfg1.rtp = false ∧ rxId1.shadow = false ∧ rxCfg1.check packet1 = 0
    ∧ rxId1.expected = none ∧ rxId1.last32.contains (packet1.seq % 256) = false ∧ packet1.payloadLen / (rxCfg1.ch * fmtBytes rxCfg1.fmt) = 1
    ∧ rxId1.jumped = false ∧ rxCfg1.matches 0 packet1 = true ∧ readAhead3 96000 (listening rxId1).rateHz = 0
    ∧ (listening { rxId1 with jumped := true }).rxIds 255 = [{ rxId1 with jumped := true }]
    ∧ 3 * rxCfg1.firstTime packet1 33400000 - (listening rxId1).origin3 ≤ 3 * 33400000 - (listening rxId1).origin3 + 6000000000 + 9000000
    ∧ (3 * rxCfg1.firstTime packet1 33400000 - (listening rxId1).origin3) / (listening rxId1).block3 = 108
    ∧ rxCfg1.check { packet1 with format := 4 } = 6 ∧ rxCfg1.check { packet1 with payloadLen := 7 } = 7
    ∧ (listening rxId1).rxMatch 0 { packet1 with format := 4 } = some 255 := by decide +kernel

def starving : State := listening { rxId1 with st := 2, lastStored := 0 }

def txCfg1 : TxCfg :=
  { rtp := false, ports := 2, fmt := 1, rate := 7, ch := 1, cls := 1, dscp := 0, frames := 6, ident := 5, dstA := 0, dstB := 0, dmac := 9, udp := 0
    ins := false, pcp := 0, vid := 0, base := 0, txOfs := 1000000, rtpOfs := 0, seqOfs := 0, xfade := 0 }

def txId1 : TxId := { cfg := txCfg1, fade := { g0 := 1048576, g1 := 1048576 }, next := 530 }
def talking : State := (linked 1).setTxIds 0 [txId1]
def heldPacket : TxPacket := { (talking.txBuild 0 txId1 500 1) with due3 := 100999999, frames := [] }
def waiting1 : TxWait :=
  { level := 1, prio := 3, dst := 9, len := 64, tagged := false, out := .streamPacket 1 9 heldPacket [], ready := 0 }
def overdue : State := talking.setNetPort 1 { NetPort.init with txq := [waiting1] }

theorem test_witness_StreamTimers :
    starving.rxIds 255 = [{ rxId1 with st := 2, lastStored := 0 }] ∧ starving.rd F.STR_CTRL_STALE ≤ starving.time.block
    ∧ talking.audio = true ∧ talking.txIds 0 = [txId1] ∧ txCfg1.portList = [1] ∧ talking.gate = true ∧ talking.linkUp 1 = true
    ∧ (talking.netPort 1).txq = [] ∧ (talking.netPort 1).free = 0 ∧ talking.prioHeld 1 (talking.txLevel 1 txCfg1).2 = false
    ∧ (talking.txLevel 1 txCfg1).1 = 1 ∧ (talking.netPort 1).credit 1 = (0, 0)
    ∧ (live.setTxIds 0 [txId1]).linkUp 1 = false ∧ (live.setTxIds 0 [txId1]).gate = true
    ∧ talking.txTime3 txCfg1 (txId1.next * txCfg1.frames) < ((talking.time.local3 + talking.block3 : Nat) : Int)
    ∧ (overdue.netPort 1).txq = [waiting1] ∧ overdue.lateOf 0 waiting1 = some heldPacket
    ∧ heldPacket.due3 + 1 = overdue.time.local3 + overdue.block3 := by decide +kernel

theorem test_witness_StreamTimers_moment :
    (talking.txBuild 0 txId1 530 1).late (talking.localAt3 (50 * talking.upNow3)) = false := by
  have h := upNow_lt talking (by decide)
  have h1 : talking.time.up3 + talking.block3 = 101000000 := by decide
  have h2 : talking.time.local3 = talking.time.up3 := by decide
  have h3 : 101000000 ≤ (talking.txBuild 0 txId1 530 1).due3 := by decide +kernel
  have h4 : (talking.txBuild 0 txId1 530 1).rtp = false := rfl
  have h5 : (50 * talking.upNow3) / 50 = talking.upNow3 := by omega
  simp only [TxPacket.late, h4, State.localAt3, h5, h2, Bool.false_eq_true, if_false, decide_eq_false_iff_not, not_lt]
  omega

/-! ## The Object Scene Protocol -/

def ctl : UdpFrom := { port := 0, addr := 50, udp := 6000, dst := 0, dstUdp := 7420 }

/-- The session engine is on at port 0. -/
def engine : State := ((linked 0).wr F.OSP_CTRL_EN 1).wr F.OSP_CTRL_PORTS 1

def zeros (n : Nat) : List Byte := List.replicate n 0
def hello (stage : Nat) : HelloBody :=
  { seq := 1, stage := stage, role := 1, kaMs := 1000, seq0 := 0xFFFFFFFF, cnonce := zeros 16, dnonce := zeros 16, mac := zeros 32 }

/-- A key of the controllers, and a challenge to `ctl`. -/
def challenged : State :=
  { engine with
    keys := [(2, [1, 2, 3])]
    osp := { engine.osp with challenges := [{ src := ctl, dnonce := zeros 16, drawn3 := 100000000 }] } }

/-- The HELLO that answers it. -/
def proof1 : HelloBody := { hello 1 with mac := challenged.helloMac ctl (hello 1) [1, 2, 3] }

def ignoring : State := { engine with osp := { engine.osp with ignored := [(50, 0)] }, time := { engine.time with up3 := 29999000000 } }

theorem test_witness_OspOpening_moment : engine.txIdle 0 = true ∧ challenged.txIdle 0 = true :=
  ⟨idle_of (by decide) (by decide) (by decide) (by decide), idle_of (by decide) (by decide) (by decide) (by decide)⟩

theorem test_witness_OspOpening :
    engine.ospReaches ctl = true ∧ engine.helloIgnored ctl = false ∧ (hello 0).stage = 0
    ∧ challenged.ospReaches ctl = true ∧ challenged.helloIgnored ctl = false ∧ proof1.stage = 1 ∧ proof1.role = 1
    ∧ challenged.osp.ses = [] ∧ challenged.challengesHeld = [{ src := ctl, dnonce := zeros 16, drawn3 := 100000000 }]
    ∧ ctl.same ctl = true ∧ proof1.dnonce = zeros 16
    ∧ (challenged.roleKeys proof1.role).find? (fun k => challenged.helloMac ctl proof1 k == proof1.mac) = some [1, 2, 3]
    ∧ (List.range 8).find? (fun n => (challenged.session n).isNone) = some 0
    ∧ ignoring.osp.ignored.lookup ctl.addr = some 0 ∧ ignoring.elapsed 0 30000000000 = true := by decide +kernel

/-- Session 7 of a controller; its next number is the largest. -/
def session7 : OspSession :=
  { src := ctl, handle := 99, role := 1, kaMs := 1000, e := 0xFFFFFFFF, cnonce := zeros 16, dnonce := zeros 16
    tokens := 3000000000, tokens3 := 100000000, rx3 := 100000000, tx3 := 100000000 }

def withSession (x : OspSession) : State := { engine with osp := { engine.osp with ses := [(7, x)] } }

def ospMsg (type seq length : Nat) (body : OspBody) : OspMsg :=
  { magic := 0x4F53, version := 1, type := type, handle := 99, seq := seq, length := length, batch := 0, udpLen := length, body := body }

def begin1 (seq : Nat) : OspMsg := { ospMsg 0x10 seq 16 .none with batch := 3 }

theorem test_witness_OspMessages :
    (withSession session7).ospReaches ctl = true ∧ (begin1 254).magic = 0x4F53 ∧ (begin1 254).bad = 0
    ∧ (withSession session7).osp.ses.find? (fun e => e.2.handle == (begin1 254).handle) = some (7, session7)
    ∧ session7.src.same ctl = true ∧ session7.closing = none ∧ (begin1 254).sequenced = true
    ∧ seqDiff ((begin1 254).seq % 2 ^ 32) session7.e = 255 ∧ seqDiff ((begin1 0xFFFFFFFF).seq % 2 ^ 32) session7.e = 0
    ∧ session7.buf.lookup ((begin1 254).seq % 2 ^ 32) = none
    ∧ (ospMsg 0x30 1 16 .none).type = 0x30 ∧ (ospMsg 0x30 1 16 .none).bad = 0 ∧ 0 < seqDiff 1 session7.e := by decide +kernel

/-- The message at the front of session 7, with an open batch or none. -/
def fronted (m : OspMsg) (batches : Tab Batch) : State :=
  let s := withSession { session7 with buf := [(0xFFFFFFFF, some m)] }
  { s with scene := { s.scene with batches := batches } }

def batch3 : Batch := { ident := 3, seq := 0xFFFFFFFE, opened3 := 100000000 }
def rec1 : ObjRecord := { obj := 1023, flags := 0, apply := 0, pos0 := 0, pos1 := 0, pos2 := 0, gain := 0, size := 0, spread := 0, glide := 0 }
def commit1 : OspMsg := { ospMsg 0x12 0xFFFFFFFF 24 (.commit 0) with batch := 3 }
def abort1 : OspMsg := { ospMsg 0x13 0xFFFFFFFF 16 .none with batch := 3 }
def update1 : OspMsg := ospMsg 0x11 0xFFFFFFFF 60 (.update 1 [rec1])
def updating : State := (fronted update1 []).wr F.OSP_OBJn_OWNER 7 [1023]
def frontOf (m : OspMsg) : OspSession := { session7 with buf := [(0xFFFFFFFF, some m)] }

theorem test_witness_OspBatches :
    (fronted (begin1 0xFFFFFFFF) []).front 7 0x10 = some (frontOf (begin1 0xFFFFFFFF), begin1 0xFFFFFFFF)
    ∧ (begin1 0xFFFFFFFF).batch ≠ 0 ∧ (fronted (begin1 0xFFFFFFFF) []).scene.batches.lookup 7 = none
    ∧ (fronted commit1 [(7, batch3)]).front 7 0x12 = some (frontOf commit1, commit1) ∧ commit1.body = .commit 0
    ∧ (fronted commit1 [(7, batch3)]).scene.batches.lookup 7 = some batch3 ∧ (fronted commit1 [(7, batch3)]).inBatch 7 3 = true
    ∧ batch3.doom = 0 ∧ (fronted commit1 [(7, batch3)]).timing 0 = (0, 101, false)
    ∧ (fronted abort1 [(7, batch3)]).front 7 0x13 = some (frontOf abort1, abort1) ∧ (fronted abort1 [(7, batch3)]).inBatch 7 3 = true
    ∧ (fronted abort1 [(7, { batch3 with doom := 6 })]).front 7 0x13 = some (frontOf abort1, abort1)
    ∧ (fronted abort1 [(7, { batch3 with doom := 6 })]).scene.batches.lookup 7 = some { batch3 with doom := 6 }
    ∧ (fronted abort1 [(7, { batch3 with doom := 6 })]).inBatch 7 3 = true ∧ Tab.get 0 (frontOf abort1).used abort1.seq < 8
    ∧ updating.front 7 0x11 = some (frontOf update1, update1) ∧ update1.body = .update 1 [rec1] ∧ update1.batch = 0
    ∧ updating.scene.batches.lookup 7 = none ∧ rec1.obj + 1 = updating.objCount ∧ updating.owner rec1.obj = 7
    ∧ rec1.badRange = false ∧ updating.timing rec1.apply = (0, 101, false) ∧ updating.storeFull 7 = false := by decide +kernel

theorem test_witness_OspBatches_tokens : 3000000000 ≤ (updating.fillBucket session7).tokens := by
  have h : 45 ≤ updating.rd F.OSP_BURST_BURST := by decide +kernel
  have k : ∀ a b c : Nat, 45 ≤ a → 3000000000 ≤ b → 3000000000 ≤ min (a * 3000000000) (b + c) := by
    intro a b c ha hb
    omega
  exact k _ session7.tokens _ h (by decide)

/-- Number 0xFFFFFFFF is missing in session 7. -/
def gapSession : OspSession := { session7 with buf := [(0, some (begin1 0))], gap := some (0xFFFFFFFF, 0), nak3 := 95000000 }
def gapped : State := withSession gapSession

theorem test_witness_OspTimers_moment : gapped.txIdle gapSession.src.port = true ∧ (late5 (withSession session7)).txIdle 0 = true :=
  ⟨idle_of (by decide) (by decide) (by decide) (by decide), idle_of (by decide) (by decide) (by decide) (by decide)⟩

theorem test_witness_OspTimers :
    gapped.session 7 = some gapSession ∧ gapSession.gap.isSome = true ∧ gapSession.closing = none
    ∧ gapped.elapsed gapSession.nak3 6000000 = true ∧ gapSession.missing = [(0xFFFFFFFF, 1)]
    ∧ (late5 gapped).elapsed 0 ((late5 gapped).rd F.OSP_TIMERS_GIVEUP * 3000000) = true
    ∧ (late5 (fronted commit1 [(7, batch3)])).elapsed batch3.opened3 ((late5 (fronted commit1 [(7, batch3)])).rd F.OSP_TIMERS_BATCHMAX * 3000000)
      = true
    ∧ Tab.get 0 (frontOf commit1).used batch3.seq < 8
    ∧ (late5 (withSession session7)).elapsed session7.tx3 (session7.kaMs * 3000000) = true
    ∧ (late5 (withSession session7)).elapsed session7.rx3 (3 * session7.kaMs * 3000000) = true
    ∧ (fronted (ospMsg 0x31 0xFFFFFFFF 20 (.bye 0)) []).front 7 0x31
      = some (frontOf (ospMsg 0x31 0xFFFFFFFF 20 (.bye 0)), ospMsg 0x31 0xFFFFFFFF 20 (.bye 0)) := by decide +kernel

theorem test_witness_OspHostWrites :
    (withSession session7).admits host R.OSP_SESn_CTRL [7] = true ∧ (withSession session7).admits host R.OSP_CTRL [] = true
    ∧ (withSession session7).txnOwn host = false ∧ (withSession session7).unblocked R.OSP_CTRL [] = true
    ∧ (withSession session7).on F.OSP_CTRL_EN = true ∧ (withSession session7).session 7 = some session7 ∧ session7.closing = none
    ∧ updating.admits host R.OSP_OBJn [1023] = true ∧ updating.txnOwn host = false ∧ updating.unblocked R.OSP_OBJn [1023] = true
    ∧ 0x80000000 / 2 ^ 28 ≠ updating.rd F.OSP_OBJn_OWNER [1023] := by decide +kernel

/-! ## Serial ports, queues and metadata -/

/-- Port 31 is enabled with slots, a class and a run bit; its queue is 255. -/
def sapState (dir slots cls run : Nat) (x : SerialPort) : State :=
  let s := (((live.wr F.SAPp_CFG_EN 1 [31]).wr F.SAPp_CFG_DIR dir [31]).wr F.SAPp_CFG_SLOTS slots [31]).wr F.SAPp_CFG_WLEN 24 [31]
  (((s.wr F.SAPp_STAT_RUN run [31]).wr F.SAPp_STAT_CLASS cls [31]).wr F.SAPp_QMAP_QUEUE 255 [31]).setSerial 31 x

/-- In I2S the left half is one bit 1, the right one a bit 0, each one sampling edge behind its WS level; the next frame starts. -/
def clocks1 : List SapClock := sapClocks [false, true, false] [false, true, false] [false, true, false] [false, true, false]

theorem test_witness_SerialPorts_halves :
    frameHalves ((sapState 0 1 7 1 {}).on F.SAPp_CFG_FMT [31]) ((sapState 0 1 7 1 {}).on F.SAPp_CFG_BCLK_INV [31]) clocks1
      = (some [true], some [false])
    ∧ frameHalves ((sapState 0 1 7 1 {}).on F.SAPp_CFG_FMT [31]) ((sapState 0 1 7 1 {}).on F.SAPp_CFG_BCLK_INV [31]) (sapClocks [false, true] [false, true] [] [false])
      = (none, none)
    ∧ frameHalves ((sapState 0 1 7 1 {}).on F.SAPp_CFG_FMT [31]) ((sapState 0 1 7 1 {}).on F.SAPp_CFG_BCLK_INV [31])
        (sapClocks [false, true] [false, true] [false, true] [false, true])
      = (some [true], none) := by decide +kernel

theorem test_witness_SerialPorts :
    (sapState 0 3 0 0 {}).sapOn 31 = true ∧ (sapState 0 3 0 0 {}).on F.SAPp_STAT_RUN [31] = false ∧ (sapState 0 3 0 0 {}).sapSends 31 = false
    ∧ (sapState 0 1 7 1 {}).sapRuns 31 = true ∧ (sapState 0 1 7 1 {}).sapSends 31 = false ∧ (sapState 0 1 0 1 {}).sapDeaf 31 = true
    ∧ (sapState 0 1 7 1 {}).sapDeaf 31 = false ∧ (sapState 0 1 7 1 {}).sapSlots 31 = [0] ∧ (sapState 0 1 7 1 {}).sapP24 31 = false
    ∧ ((sapState 0 1 7 1 {}).queue ((sapState 0 1 7 1 {}).sapQueue 31)).asmBits + 32 < 256
    ∧ (sapState 1 3 7 1 {}).sapRuns 31 = true ∧ (sapState 1 3 7 1 {}).sapSends 31 = true ∧ ((sapState 1 3 7 1 {}).serial 31).sendFrom3 = none
    ∧ ((sapState 1 3 7 1 { sendFrom3 := some 300, spare := [1, 2] }).serial 31).sendFrom3 = some 300
    ∧ (sapState 1 3 7 1 { sendFrom3 := some 300, spare := [1, 2] }).sapSlots 31 = [0, 1]
    ∧ ((sapState 1 3 7 1 { sendFrom3 := some 300, spare := [1, 2] }).serial 31).spare.length = 2
    ∧ (sapState 0 1 7 1 {}).audio = true ∧ (sapState 0 1 7 1 {}).sapClass 31 ≠ classOf 1 ∧ (sapState 0 1 7 1 {}).sapClass 31 ≠ 0 := by
  decide +kernel

/-- Queue 255 with its state; the host writes it. -/
def queueState (x : BrmQueue) : State :=
  (((live.wr F.BRMq_CFG_EN 1 [255]).wr F.BRMq_CFG_IDLE 10 [255]).wr F.BRMq_SIZE_CAP 2 [255]).setQueue 255 x

def partial1 : BrmQueue := { asm := 5, asmBits := 8, words := [(32, 7)] }

/-- A byte of tag 7 waits for queue 255. -/
def tagged1 : State :=
  (((queueState {}).wr F.MDI_TAGMAPt_EN 1 [7]).wr F.MDI_TAGMAPt_QUEUE 255 [7]).setTagWord 7 (5, 8)

/-- Tag 7 of the metadata port goes to queue 254. -/
def metadata : State := ((live.wr F.MDI_CTRL_EN 1).wr F.MDI_TAGMAPt_EN 1 [7]).wr F.MDI_TAGMAPt_QUEUE 254 [7]

theorem test_witness_QueuesAndMetadata :
    (queueState {}).admits host R.BRMq_WR [255] = true ∧ (queueState {}).on F.BRMq_CFG_EN [255] = true
    ∧ (queueState {}).rd F.BRMq_CFG_WRITER [255] = 0 ∧ ((queueState {}).queue 255).asmBits + 32 < 256
    ∧ (queueState partial1).admits host R.BRMq_CTRL [255] = true ∧ (queueState partial1).queue 255 = partial1 ∧ partial1.asmBits ≠ 0
    ∧ partial1.resetting = false ∧ (queueState partial1).queueFull 255 = false ∧ partial1.words = [(32, 7)]
    ∧ (queueState partial1).on F.BRMq_CFG_EN [255] = true ∧ (queueState partial1).rd F.BRMq_CFG_IDLE [255] ≠ 0
    ∧ (queueState partial1).elapsed partial1.wrote3 ((queueState partial1).rd F.BRMq_CFG_IDLE [255] * 3000) = true
    ∧ (queueState partial1).tagsOf 255 = []
    ∧ tagged1.tagsOf 255 = [7] ∧ (tagged1.queue 255).asmBits = 0 ∧ tagged1.tagWord 7 = (5, 8) ∧ (tagged1.queue 255).resetting = false
    ∧ tagged1.queueFull 255 = false ∧ tagged1.admits host R.BRMq_CTRL [255] = true
    ∧ metadata.audio = true ∧ metadata.on F.MDI_CTRL_EN = true ∧ metadata.on F.MDI_TAGMAPt_EN [7] = true ∧ (metadata.tagWord 7).2 + 16 < 256
    ∧ metadata.on F.MDI_TAGMAPt_EN [6] = false ∧ metadata.admits host R.MDI_CTRL [] = true ∧ metadata.txnOwn host = false
    ∧ metadata.unblocked R.MDI_CTRL [] = true := by decide +kernel

/-! ## Renderer, mix, output and convolution -/

def fading : State :=
  { live.wr F.QNC_STAT_FADING 1 with
    swapAt := some (98, 2)
    xp := [(32768, { route := { kind := 0, src := 0, bus := 0, gain := { g0 := 0, g1 := 0 } }, ghost := some { kind := 0, src := 1, bus := 0, gain := { g0 := 0, g1 := 0 } } }),
      (131071, { route := { kind := 0, src := 0, bus := 1, gain := { g0 := 0, g1 := 0 } }, releasing := true })]
    out := [(511, { OutChan.init with oldFilt := some (none, 1024), dly := { cur := 3, xf := some (3, 9, 960) } })]
    inp := [(255, { InpChan.init with dly := { cur := 3, xf := some (3, 9, 960) } })]
    rend := [(1023, { ObjRender.init with d0 := 3, xf := some (3, 9, 960) })] }

theorem test_witness_MixFades :
    fading.swapAt = some (98, 2) ∧ 98 + 2 = fading.time.block
    ∧ (fading.xpoint 32768).isSome = true ∧ ((fading.xpoint 32768).bind (·.ghost)) = some { kind := 0, src := 1, bus := 0, gain := { g0 := 0, g1 := 0 } }
    ∧ ({ g0 := 0, g1 := 0 } : Ramp).moving = false
    ∧ fading.xpoint 131071 = some { route := { kind := 0, src := 0, bus := 1, gain := { g0 := 0, g1 := 0 } }, releasing := true }
    ∧ (fading.outChan 511).oldFilt = some (none, 1024) ∧ (fading.inpChan 255).dly.xf = some (3, 9, 960)
    ∧ (fading.objRender 1023).xf = some (3, 9, 960) ∧ (fading.outChan 511).dly.xf = some (3, 9, 960) := by decide +kernel

/-- The staging engine is set to copy two cells from the start of DRAM. -/
def staging : State := (live.wr F.CNV_STAGE_DST_BANK 1).wr F.CNV_STAGE_CNT_COUNT 2
def job1 : StageJob := { taps := false, bank := 1, cell := 0, count := 2, src := 0 }
def staged : State := { staging with stage := some job1 }

theorem test_witness_MixTables_store :
    staging.admits host R.CNV_STAGE_CTRL [] = true ∧ staging.txnOwn host = false ∧ staging.unblocked R.CNV_STAGE_CTRL [] = true
    ∧ staging.stageCode { job1 with src := staging.rd F.CNV_STAGE_SRC_HI_V * 2 ^ 32 + staging.rd F.CNV_STAGE_SRC_LO_V } staging.protectedFilters = 0
    ∧ staged.stage = some job1
    ∧ within 0x1000000 0x1800000 0x27FFFFC = true ∧ live.pwr.off = false ∧ live.fab.drains.contains (Access.master host) = false
    ∧ live.answers 0x27FFFFC = true ∧ live.roleOf host ≠ 0 ∧ live.alone host = true
    ∧ live.windowThere (.coef ((0x27FFFFC - 0x1000000) / 0xC00000) ((0x27FFFFC - 0x1000000) % 0xC00000)) 4 = true
    ∧ live.cellsBusy ((0x27FFFFC - 0x1000000) / 0xC00000) ((0x27FFFFC - 0x1000000) % 0xC00000) 4 = false := by decide +kernel

theorem test_witness_MixTables_tables :
    live.admits host R.GRIDx_c_w [1, 0, 0] = true ∧ live.txnOwn host = false ∧ live.unblocked R.GRIDx_c_w [1, 0, 0] = true
    ∧ (findReg (R.GRIDx_c_w.addr [1, 0, 0]) 1).isSome = true ∧ ((findReg (R.GRIDx_c_w.addr [1, 0, 0]) 1).map (·.2)) = some [1, 0, 0]
    ∧ ((findReg (R.GRIDx_c_w.addr [1, 0, 0]) 1).map (·.1.reg)) = some R.GRIDx_c_w
    ∧ live.tableBusy R.GRIDx_c_w [1, 0, 0] = false ∧ live.tableBusy R.QNC_LAYx_SPKs [0, 511] = true
    ∧ live.admits host R.QNC_LAYx_SPKs [0, 511] = true ∧ live.unblocked R.QNC_LAYx_SPKs [0, 511] = true
    ∧ ((findReg (R.QNC_LAYx_SPKs.addr [0, 511]) 1).map fun x => x.1.fields.any fun f =>
      f.acc == .rw && f.of (BitVec.ofNat 32 1) != f.of (live.word R.QNC_LAYx_SPKs [0, 511])) = some true := by decide +kernel

/-! ## The cascade ring -/

/-- Device `dev` of a ring of 4 in a ring state, with group 0 of 16 lines. -/
def ringState (dev state : Nat) (r : RingState) : State :=
  let s := (((live.wr F.CAS_CFG_EN 1).wr F.CAS_CFG_SIZE_M1 3).wr F.CAS_CFG_DEV dev).wr F.CAS_CFG_HEAD (if dev = 0 then 1 else 0)
  let s := ((s.wr F.CAS_STAT_STATE state).wr F.CAS_STAT_OPEN 3).wr F.CAS_GRPg_EN 1 [0]
  { (s.wr F.CAS_STAT_DN_LINK 1).wr F.CAS_STAT_UP_LINK 1 with ring := r }

/-- A member that is locked to the ring reference is aligned. -/
def alignedAt (dev sink : Nat) (r : RingState) : State :=
  (((ringState dev 3 r).wr F.CLK_STAT_SEL 4).wr F.CLK_STAT_STATE 2).wr F.CAS_GRPg_SINK sink [0]

def enum1 : EnumFrame := { ownReturn := true, hops := 2, groups := [] }

theorem test_witness_RingStart :
    (ringState 0 1 {}).on F.CAS_CFG_EN = true ∧ (ringState 0 1 {}).rd F.CAS_STAT_STATE = 1 ∧ (ringState 0 1 {}).on F.CAS_STAT_DN_LINK = true
    ∧ (ringState 0 1 {}).on F.CAS_STAT_UP_LINK = true ∧ (ringState 0 2 {}).rd F.CAS_STAT_STATE = 2 ∧ (ringState 0 2 {}).isHead = true
    ∧ (ringState 0 2 {}).ringMute = false ∧ (ringState 1 2 {}).ringMute = false ∧ ({ enum1 with ownReturn := false } : EnumFrame).ownReturn = false
    ∧ enum1.ownReturn = true ∧ (ringState 1 2 {}).isHead = false ∧ enum1.hops % (ringState 1 2 {}).casSize ≠ (ringState 1 2 {}).dev
    ∧ (ringState 3 3 {}).casRuns = true ∧ (ringState 3 3 {}).isOrigin .up = true ∧ (ringState 3 3 {}).isHead = false
    ∧ (ringState 3 3 {}).paired = false ∧ (ringState 3 3 {}).aligned = false ∧ (ringState 3 3 {}).lineFrames = [(0, 0)] := by decide +kernel

theorem test_witness_RingStart_adds : ∀ g, (ringState 3 3 {}).addsTo .up g = false := by
  intro g
  have h : (ringState 3 3 {}).aligned = false := by decide +kernel
  simp [State.addsTo, h]

def lines1 : LinesFrame :=
  { group := 0, frame := 0, zeroed := false, zhop := 0, block := (alignedAt 1 1 {}).ringTag, crcGood := true, words := List.replicate 512 1 }

/-- A part in Safe Mute, and an aligned unit of a pair that has no claim. -/
def muted1 : State := (ringState 1 3 {}).wr F.SYS_BOOTSTAT_STATE 2
def gated1 : State := ((alignedAt 1 1 {}).wr F.RED_CFG_EN 1).wr F.RED_CFG_PARTNER 2

theorem test_witness_RingLines :
    (ringState 1 3 {}).casRuns = true ∧ (ringState 1 3 {}).isHead = false ∧ (ringState 1 3 {}).aligned = false
    ∧ (ringState 1 3 {}).isEnd .down = false ∧ (ringState 1 3 {}).ringMute = false ∧ muted1.ringMute = true
    ∧ (alignedAt 1 1 {}).ringMute = false ∧ (alignedAt 1 1 {}).gate = true
    ∧ gated1.gate = false ∧ gated1.casRuns = true ∧ gated1.isHead = false ∧ gated1.ringMute = false ∧ gated1.isEnd .down = false
    ∧ gated1.aligned = true ∧ gated1.framesSeen .down < gated1.lineFrames.length
    ∧ (alignedAt 1 1 {}).casRuns = true ∧ (alignedAt 1 1 {}).isHead = false ∧ (alignedAt 1 1 {}).aligned = true
    ∧ (alignedAt 1 1 {}).lineFrames[(alignedAt 1 1 {}).framesSeen .down]? = some (lines1.group, lines1.frame) ∧ lines1.crcGood = true
    ∧ lines1.zeroed = false ∧ lines1.block = (alignedAt 1 1 {}).ringTag
    ∧ (alignedAt 1 1 {}).rd F.CAS_GRPg_SINK [lines1.group] = (alignedAt 1 1 {}).dev
    ∧ (alignedAt 1 1 {}).ring.closed.contains .down = false ∧ (alignedAt 1 1 {}).isOrigin .down = false
    ∧ (alignedAt 1 1 {}).lineFrames.filter (fun p => (alignedAt 1 1 {}).rd F.CAS_GRPg_SINK [p.1] == (alignedAt 1 1 {}).dev) ≠ [] := by
  decide +kernel

theorem test_witness_RingTimeAndBreaks :
    (ringState 1 3 {}).casRuns = true ∧ (ringState 1 3 {}).isHead = false ∧ (ringState 1 3 {}).isEnd .down = false
    ∧ (ringState 1 3 {}).on F.CAS_CFG_EN = true ∧ 1 < (ringState 1 3 {}).casSize ∧ (ringState 1 3 {}).ring.down = []
    ∧ 1 ≠ (ringState 1 3 {}).rd F.CAS_STAT_OPEN ∧ (ringState 1 3 {}).reachesHead [1] = true ∧ 1 = (ringState 1 3 {}).dev
    ∧ (ringState 1 3 {}).ringMute = false
    ∧ (ringState 1 3 { down := [0], wrapDue := [(0, 100000000)] }).ring.wrapDue = [(0, 100000000)]
    ∧ (ringState 1 3 { down := [0], wrapDue := [(0, 100000000)] }).time.up3 = 100000000
    ∧ (ringState 1 3 { down := [0], wrapDue := [(0, 100000000)] }).ring.tun = []
    ∧ (ringState 1 4 { down := [3] }).rd F.CAS_STAT_STATE = 4 ∧ (ringState 1 4 { down := [3] }).ring.down = [3] := by decide +kernel

/-- A tunnelled read of SYS_ID with the role of the head's session. -/
def tunnelled : Access := { iface := .pcie, slot := 1, carriedRole := 3, carriedHandle := 7 }
def job2 : HostJob := { access := host, reads := true, todo := [(0x8000000, 4, none)] }

theorem test_witness_RingTunnel :
    (ringState 1 3 {}).on F.CAS_CFG_EN = true ∧ (ringState 1 3 {}).isHead = false ∧ (ringState 1 3 {}).rd F.CAS_STAT_STATE ≠ 5
    ∧ (ringState 1 3 {}).pwr.off = false ∧ (ringState 1 3 {}).fab.drains.contains 2 = false
    ∧ (match (ringState 1 3 {}).localWord { tunnelled with iface := .tunnel } (0x8000000 % 0x4000000) 4 none with
      | (_, .ok v) => v == 0x0C511051 | _ => false) = true
    ∧ takeOldest 1 (ringState 0 3 { tun := [(1, job2)] }).ring.tun = some (job2, []) ∧ job2.todo = [(0x8000000, 4, none)]
    ∧ (ringState 0 3 {}).admits host R.CAS_RST [] = true ∧ (ringState 0 3 {}).txnOwn host = false
    ∧ (ringState 0 3 {}).unblocked R.CAS_RST [] = true ∧ (ringState 0 3 {}).isHead = true := by decide +kernel

/-! ## The redundant pair -/

/-- Device `dev` of the pair of 1 and 2 in a state of the pair. -/
def pairUnit (dev state claim : Nat) (x : PairState) : State :=
  let s := ((ringState dev 3 {}).wr F.RED_CFG_EN 1).wr F.RED_CFG_PARTNER (3 - dev)
  { (s.wr F.RED_STAT_STATE state).wr F.RED_STAT_CLAIM_OUT claim with pair := x }

theorem test_witness_PairClaims :
    (pairUnit 2 3 1 {}).paired = true ∧ (pairUnit 2 3 1 {}).on F.RED_STAT_CLAIM_OUT = true
    ∧ (pairUnit 2 3 1 {}).rd F.RED_CFG_PARTNER < (pairUnit 2 3 1 {}).dev
    ∧ (pairUnit 2 2 0 {}).mayClaim = true ∧ (pairUnit 2 2 0 {}).liveCauses &&& hardMask = 0
    ∧ (pairUnit 2 2 0 {}).on F.CLK_STAT_HO_OOS = false ∧ (pairUnit 2 2 0 {}).redState ≠ 0
    ∧ (pairUnit 1 3 1 { partner := some (2, false, true) }).admits host R.RED_CTRL [] = true
    ∧ (pairUnit 1 3 1 { partner := some (2, false, true) }).redState = 3
    ∧ (pairUnit 1 3 1 { partner := some (2, false, true) }).pair.partner = some (2, false, true)
    ∧ (pairUnit 1 3 1 { partner := some (2, false, true) }).on F.RED_STAT_FAULT_IN = false
    ∧ (pairUnit 1 2 0 {}).admits host R.RED_CTRL [] = true ∧ (pairUnit 1 2 0 {}).redState = 2 := by decide +kernel

def mirror1 : MirrorFrame := { (pairUnit 1 3 1 {}).mirrorFrame with commits := [(101, [(0x4000, 1)])] }

/-- A frame that names a commit whose block has begun. -/
def mirror2 : MirrorFrame := { mirror1 with commits := [(100, [])] }

theorem test_witness_PairPartner :
    (pairUnit 1 3 1 {}).paired = true ∧ (pairUnit 1 3 1 {}).redState = 3 ∧ (pairUnit 1 2 0 {}).on F.RED_STAT_FAULT_IN = false
    ∧ (pairUnit 1 2 0 {}).redState = 2 ∧ (pairUnit 1 2 0 {}).on F.RED_STAT_STALE = false
    ∧ (pairUnit 1 2 0 { heard := 97 }).pair.heard + 3 = (pairUnit 1 2 0 { heard := 97 }).time.block
    ∧ (pairUnit 1 2 0 {}).paired = true ∧ live.paired = false ∧ live.on F.RED_STAT_FAULT_IN = false
    ∧ mirror2.fromActive = true ∧ mirror2.commits = [(100, [])] ∧ (pairUnit 2 2 0 {}).time.block = 100
    ∧ (pairUnit 2 2 0 {}).pair.known = [] ∧ (pairUnit 2 2 0 {}).redState = 2
    ∧ (pairUnit 1 1 0 { copied := true }).redState = 1 ∧ (pairUnit 1 1 0 { copied := true }).pair.copied = true
    ∧ mirror1.fromActive = true ∧ (mirror1.commits.all fun c => decide ((pairUnit 2 2 0 {}).time.block < c.1)) = true
    ∧ (pairUnit 1 1 0 {}).redState = 1 ∧ (pairUnit 1 1 0 {}).pair.copied = false := by decide +kernel

/-! ## Boot, resets and power -/

/-- A signed image of one REGS section with one record; it asks for room correction, which the OVX-1031 has not. -/
def imageSigned : List Byte := beBytes 328 0x3149564f010000000100000000000100070000000000000001000000000200000000000000000000000000000000000000000000000000000000000000000000aa0b2a619986362bd1bea47342fe689352ba6bd1dc2507412fdbf149ff2d90e0d093242bc157921b0a40866e54d2e57f6282dd85fb1eb71f334fc5dc30a46ba10000000000000000000000000000000000000000000000000000000000000000000000000000000000000000000000000000000000000000000000000000000020a6366227eb6177eebf9e5a36ac7840026785ef6dada7430026da762ae67372a85d0fd9f21f416c5c855207469010fa2b8c48b32bd4e72701a32bca36c5f12a0100000040010000080000000000000028537b7a9443e32d47c17819a933b9e3004afd3d9cd140def1cdc360e0bcc858000000000000000000000000000000000011000000000000

/-- The device after power-on with an image in slot A. -/
def withImage (bytes : List Byte) : State :=
  { State.reset with flash := (bytes.zipIdx.map fun x => (0x200000 + x.2, x.1)).filter (·.2 != flashBlank) }

/-- A part with the signed image. -/
def device (p : Part) : State := { withImage imageSigned with part := p }

def fielded : State := { device .ovx1041 with sec := { (device .ovx1041).sec with lc := 3, fuses := 3, rollback := 0 } }

theorem test_witness_BootSlotChecks_header :
    State.reset.headerBad 0 = true ∧ (device .ovx1041).headerBad 0 = false ∧ (device .ovx1041).slotKeyOk 0 = true
    ∧ fielded.headerBad 0 = false ∧ fielded.slotKeyOk 0 = false := by decide +kernel

/-- The image without a signature. -/
def imageUnsigned : List Byte := imageSigned.take 192 ++ List.replicate 64 0 ++ imageSigned.drop 256

theorem test_witness_BootSlotChecks_unsigned : (withImage imageUnsigned).headerBad 0 = false
    ∧ (withImage imageUnsigned).slotKeyOk 0 = true ∧ (withImage imageUnsigned).slotSigOk 0 = false := by decide +kernel

/-! The signature of the image, in steps: its key, its numbers, its digest, and the two multiples of the check. -/

def keyX : Nat := 0xaa0b2a619986362bd1bea47342fe689352ba6bd1dc2507412fdbf149ff2d90e0
def keyY : Nat := 0xd093242bc157921b0a40866e54d2e57f6282dd85fb1eb71f334fc5dc30a46ba1
def sigR : Nat := 0x20a6366227eb6177eebf9e5a36ac7840026785ef6dada7430026da762ae67372
def sigS : Nat := 0xa85d0fd9f21f416c5c855207469010fa2b8c48b32bd4e72701a32bca36c5f12a
def digestZ : Nat := 0x4d1d5f0a882e27c9d48f2bdcc02ab0748aad4d142f0324aa67004629ae965f81

theorem signed_fields : let b := fun off => ofBe ((withImage imageSigned).flashRead ((withImage imageSigned).slotBase 0 + off) 32)
    b 64 = keyX ∧ b 96 = keyY ∧ b 192 = sigR ∧ b 224 = sigS := by decide +kernel

theorem signed_digest : ofBe ((withImage imageSigned).slotDigest 0) = digestZ := by decide +kernel

theorem signed_first : ecMul 256 (digestZ * invMod p256N sigS % p256N) (some p256G) = some
    (0xa656220e38f85f56eaff1de81ddb3e2cdec33c50692d51b7d435d3dc2bf124f6,
     0xc48810b1bd5869b301edd79f1d073d448c3aff2f5c2676eb52f35ca9c73f6cf5) := by decide +kernel

theorem signed_second : ecMul 256 (sigR * invMod p256N sigS % p256N) (some (keyX, keyY)) = some
    (0xeb4632892159d3bab6d11614ba12b941356a9cc6c460a514722fbba633ea667,
     0x88ef7b38cfd1188ced036afca1b76f01e7f34d47f93bfc31629ba2ac4b63e8f4) := by decide +kernel

theorem test_witness_BootSlotChecks_signature : (withImage imageSigned).slotSigOk 0 = true := by
  obtain ⟨hx, hy, hr, hs⟩ := signed_fields
  simp only [State.slotSigOk, hx, hy, hr, hs]
  exact ecdsaVerify_of (by decide +kernel) signed_digest signed_first signed_second (by decide +kernel)

/-- The header of slot A cannot be read. -/
def unread1 : State := { device .ovx1041 with boot := { (device .ovx1041).boot with badRead := some (0, 255) } }

theorem test_witness_BootSlotChecks_caps :
    (device .ovx1031).headerBad 0 = false ∧ (device .ovx1031).slotKeyOk 0 = true
    ∧ (device .ovx1031).sec.rollback ≤ (device .ovx1031).slotField 0 20 2 ∧ (device .ovx1031).slotField 0 20 2 < 1
    ∧ tableBad ((device .ovx1031).slotField 0 28 4) [(device .ovx1031).section 0 0] 0 (256 + 48 * (device .ovx1031).slotSections 0) = none
    ∧ (device .ovx1031).slotSections 0 = 1 ∧ ((device .ovx1031).section 0 0).invalid = false
    ∧ (device .ovx1031).boot.badRead ≠ some (0, 255) ∧ unread1.boot.badRead = some (0, 255)
    ∧ capsMet ((device .ovx1031).slotField 0 8 4) (partCaps .ovx1031) = false := by decide +kernel

theorem test_witness_BootSlotChecks_caps_signature : (device .ovx1031).slotSigOk 0 = true :=
  (State.slotSigOk_congr (s := withImage imageSigned) (by decide +kernel) (by decide +kernel) 0).trans test_witness_BootSlotChecks_signature

theorem test_witness_BootOutcomes :
    State.reset.booted = false ∧ State.reset.pwr.held = false ∧ State.reset.pwr.off = false ∧ State.reset.pwr.causes = 0
    ∧ State.reset.candidate 0 = false ∧ State.reset.candidate 1 = false ∧ (device .ovx1041).booted = false
    ∧ ((device .ovx1041).bootReady (some 2048)).bootOrder = [0] := by decide +kernel

/-- A device as the boot engine finds it when it tries slot A. -/
def trying (s : State) : State := (s.bootReady (some 2048)).nextUsed.wr F.SYS_BOOTSTAT_SLOT 0

def unfit : State := withImage (imageSigned.set 14 0)

theorem test_witness_BootOutcomes_failed : (unfit.bootReady (some 2048)).bootOrder = [0]
    ∧ (match (trying unfit).trySlot 0 with | .ok _ => none | .error (f, _) => some f) = some (2, 0xFF, 0) := by decide +kernel

/-! The signed image starts an OVX-1041: its section loads, and the configuration is in order, rule by rule. -/

/-- What the section of the signed image loads. -/
def loading : Loading :=
  match Loading.sections { s := trying (device .ovx1041) } 0 [(0, (trying (device .ovx1041)).section 0 0)] with
  | .ok l => l
  | .error _ => { s := trying (device .ovx1041) }

/-- The settings that the units have taken. -/
def loaded : State := State.takeSettings loading.s true (loading.writes.map (·.1)) loading.s

theorem loading_eq : Loading.sections { s := trying (device .ovx1041) } 0 [(0, (trying (device .ovx1041)).section 0 0)]
    = .ok loading := by
  have h : (match Loading.sections { s := trying (device .ovx1041) } 0 [(0, (trying (device .ovx1041)).section 0 0)] with
    | .ok _ => true | .error _ => false) = true := by decide +kernel
  unfold loading
  split <;> simp_all

theorem loaded_streams : Broken.clean (State.streamRules loaded loaded [] 0) = true := by decide +kernel
theorem loaded_queues : Broken.clean loaded.queueRules = true := by decide +kernel
theorem loaded_lines : Broken.clean (State.lineRules loaded loaded true) = true := by decide +kernel
theorem loaded_inputs : Broken.clean loaded.inputRules = true := by decide +kernel
theorem loaded_outputs : Broken.clean loaded.outputRules = true := by decide +kernel
theorem loaded_renderer : Broken.clean (State.rendererRules loaded loaded true) = true := by decide +kernel
theorem loaded_cores : Broken.clean (loaded.coreRules true) = true := by decide +kernel
theorem loaded_rest : Broken.clean (loaded.xpRules loaded.xpUsed) = true ∧ Broken.clean (loaded.cnvRules loaded.stage) = true
    ∧ Broken.clean (loaded.ringRules true) = true ∧ Broken.clean loaded.pairRules = true := by decide +kernel

theorem loaded_ranges : Broken.clean (loaded.rangeRules loading.writes) = true := by decide +kernel

theorem loaded_clean : Broken.clean (State.configRules loaded loaded loaded true [] 0 ++ loaded.rangeRules loading.writes) = true := by
  obtain ⟨h1, h2, h3, h4⟩ := loaded_rest
  simp only [loaded_ranges, State.configRules, Broken.clean_append, loaded_streams, loaded_queues, loaded_lines, loaded_inputs, loaded_outputs,
    loaded_renderer, loaded_cores, h1, h2, h3, h4, Bool.and_self]

theorem trying_checks :
    let s := trying (device .ovx1041)
    s.headerBad 0 = false ∧ s.slotKeyOk 0 = true ∧ s.sec.rollback ≤ s.slotField 0 20 2 ∧ s.slotSections 0 = 1
    ∧ tableBad (s.slotField 0 28 4) [s.section 0 0] 0 304 = none
    ∧ s.boot.badRead = none ∧ (s.section 0 0).invalid = false
    ∧ capsMet (s.slotField 0 8 4) (partCaps s.part) = true
    ∧ (s.rd F.SYS_DRAMSIZE_MIB == 0 || decide (s.rd F.SYS_DRAMSIZE_MIB < s.slotField 0 12 2)) = false
    ∧ loading.keys.length = 0 ∧ s.boot.journal = [] := by decide +kernel

theorem test_witness_BootOutcomes_loads : ∃ t, (trying (device .ovx1041)).trySlot 0 = .ok t := by
  obtain ⟨hh, hk, hr, hn, ht, hb, hy, hc, hd, hu, hj⟩ := trying_checks
  have hf : (trying (device .ovx1041)).slotSigOk 0 = true :=
    (State.slotSigOk_congr (s := withImage imageSigned) (by decide +kernel) (by decide +kernel) 0).trans test_witness_BootSlotChecks_signature
  exact State.trySlot_starts hh hk hf (Nat.not_lt.mpr hr) hn ht hb hy hc hd loading_eq (List.length_eq_zero_iff.mp hu) hj
    loaded_clean

/-- Audio runs from slot A; the flash command registers name an address. -/
def flashing (addr : Nat) (cmd : Option (Nat × Nat)) : State :=
  let s := (live.wr F.SYS_BOOTSTAT_SLOT 0).wr F.BOOT_FADDR_ADDR addr
  { s with
    flash := [(0x8200000, 1), (0x8200100, 2)]
    boot := { s.boot with cmd := cmd, waiting := [{ digest := zeros 8, recs := [(0x1100, 0)] }] } }

theorem test_witness_BootFlashAndJournal :
    (flashing 0x8200000 none).admits host R.BOOT_FCMD [] = true ∧ (flashing 0x8200000 none).txnOwn host = false
    ∧ (flashing 0x8200000 none).unblocked R.BOOT_FCMD [] = true ∧ (flashing 0x200000 none).fcmdError 1 0x200000 = 1
    ∧ (flashing ((flashing 0 none).slotBase 1) none).fcmdError 3 ((flashing 0 none).slotBase 1) = 0
    ∧ (flashing 0x8200000 (some (1, 0x8200000))).boot.cmd = some (1, 0x8200000)
    ∧ (flashing 0 none).admits host R.BOOT_CTRL [] = true ∧ (flashing 0 none).running = true
    ∧ (flashing 0 none).boot.waiting = [{ digest := zeros 8, recs := [(0x1100, 0)] }] ∧ (flashing 0 none).boot.clear = false
    ∧ (flashing 0 none).admits host R.BOOT_PCTRL [] = true := by decide +kernel

def resetting : State := { live with pwr := { live.pwr with causes := 8, since3 := 0 } }

theorem test_witness_Resets : live.admits host R.SYS_RSTCTRL [] = true ∧ resetting.resetDue = true := by decide +kernel

def asleep : State := live.wr F.SYS_STAT_PWR 2
def turnedOff : State := { (live.wr F.SYS_WAKE_PIN_EN 1) with pwr := { live.pwr with off := true, crit := true } }
def entering : State := { (live.wr F.SYS_WAKE_PIN_EN 1) with pwr := { live.pwr with goal := some 2 } }

theorem test_witness_PowerStates :
    live.admits host R.SYS_PWRCTRL [] = true ∧ live.txnOwn host = false ∧ live.unblocked R.SYS_PWRCTRL [] = true
    ∧ live.pwrError 0 = 3 ∧ live.pwrError 1 = 0 ∧ live.pwrError 2 = 0 ∧ live.pwrError 3 = 0 ∧ live.rd F.SYS_STAT_PWR ≠ 2
    ∧ asleep.admits host R.SYS_PWRCTRL [] = true ∧ asleep.rd F.SYS_STAT_PWR = 2 ∧ asleep.pwrError 0 = 0 ∧ asleep.pwr.exit = false
    ∧ asleep.pwr.goal = none ∧ asleep.pwr.off = false ∧ asleep.pwrError 1 = 3 ∧ entering.pwr.goal = some 2 ∧ entering.rd F.SYS_STAT_PWR ≠ 2
    ∧ (true ≠ entering.on F.SYS_WAKE_PIN_POL) ∧ (true ≠ turnedOff.on F.SYS_WAKE_PIN_POL)
    ∧ entering.on F.SYS_WAKE_PIN_EN = true ∧ turnedOff.pwr.off = true ∧ turnedOff.on F.SYS_WAKE_PIN_EN = true := by decide +kernel

theorem test_witness_SensorReadings : live.pwr.off = false ∧ live.pwr.crit = false ∧ (live.rd F.SYS_THERM_WARN : Int) * 100 ≤ 12499
    ∧ (live.rd F.SYS_THERM_TRIP : Int) * 100 ≤ 12499 ∧ live.pwr.warm = false ∧ live.on F.SYS_THERM_THERMAL = false ∧ live.booted = true
    ∧ (live.wr F.SYS_THERM_TRIP_QUIET 1).on F.SYS_THERM_TRIP_QUIET = true ∧ live.rd F.SYS_STAT_PWR = 0 ∧ live.pwr.goal = none
    ∧ live.rd F.SYS_SUPPLY_OUT = 0 ∧ turnedOff.pwr.off = true ∧ turnedOff.pwr.crit = true := by decide +kernel

/-! ## The machine as a whole, words and memories -/

theorem test_witness_StepRunsFront :
    ({ live with pending := [.lock, .hoOos] } : State).pending = .lock :: [.hoOos] ∧ live.pending = [] := by decide

theorem test_witness_StepKeepsSettled : State.reset.settled ∧ step State.reset = .next State.reset :=
  ⟨by unfold State.settled; decide +kernel, rfl⟩

theorem test_witness_LuverenEncoding :
    (Instr.luvMac 31 { mac0 with first := .reg 1, second := .kBus 4 .up }).wf = true
    ∧ encodeLuv (.luvMac 31 { mac0 with first := .reg 1, second := .kBus 4 .up }) = some 0xD0400220
    ∧ 0xD0400220 < 2 ^ 32 ∧ decodeLuv 31 0xD0400220 = some (.luvMac 31 { mac0 with first := .reg 1, second := .kBus 4 .up }) := by
  decide +kernel

theorem test_witness_MemoriesStayOrdered :
    exec .stageDone staged = .next (after .stageDone staged) ∧ exec .lock live = .next (after .lock live)
    ∧ Memory.wf dramBlank staged.dram = true ∧ Memory.wf flashBlank staged.flash = true ∧ Memory.wf cellBlank staged.cells = true :=
  ⟨rfl, rfl, by decide, by decide, by decide⟩

def part41 : State := { live with part := .ovx1041 }

theorem test_witness_RulePartsAndCores :
    (findReg (R.SYS_ID.addr []) 7).map (·.2) = some [] ∧ (findReg (R.SYS_CAPS.addr []) 7).map (·.2) = some []
    ∧ part41.part = .ovx1041 ∧ part41.coreCount ≤ 16 := by decide +kernel

theorem test_witness_RuleStandbyAccess : standby.booted = true ∧ standby.rd F.SYS_STAT_PWR = 2
    ∧ 0x2FFF < 0x3000 ∧ 0x2FFF % 1 = 0 ∧ 0x6FFC < 0x7000 ∧ 0x6FFC % 4 = 0 ∧ 0x3FFFFFE < 0x4000000 ∧ 0x3FFFFFE % 2 = 0
    ∧ standby.answers 0x2FFF = true ∧ standby.answers 0x3000 = false ∧ standby.answers 0x6FFC = true ∧ standby.answers 0x7000 = false
    ∧ standby.pwr.off = false ∧ standby.fab.drains.contains (Access.master host) = false := by decide +kernel

/-! ## Sessions, transactions and the log -/

/-- The host of slot 7, which has no session yet. -/
def host7 : Access := { iface := .pcie, slot := 7 }

/-- A key of the operators; slot 7 in a state, with what it holds. -/
def opening (state : Nat) (ses : Tab Session) : State :=
  { live.wr F.SEC_OPEN_STAT_STATE state [7] with keys := [(2, [1, 2, 3])], sec := { live.sec with ses := ses } }

def session1 (step drawn3 : Nat) : Session := { iface := .pcie, role := 1, unlock := false, step := step, drawn3 := drawn3 }
def lockedOut : State := { live with sec := { live.sec with locked := [(Iface.code .pcie, 0)] } }
def later (s : State) (up3 : Nat) : State := { s with time := { s.time with up3 := up3 } }

theorem test_witness_SessionChallenge :
    (opening 0 []).txnOwn host7 = false ∧ (opening 0 []).reaches host7 R.SEC_OPEN_CTRL [] = true ∧ (opening 0 []).secState 7 = 0
    ∧ (opening 0 []).sec.locked.lookup (Iface.code host7.iface) = none ∧ (opening 0 []).roleKeys 1 ≠ []
    ∧ 0x1000000 < 2 ^ 29 ∧ 0x1000000 / 2 ^ 24 % 4 = 1 ∧ 0x1000000 / 2 ^ 28 % 2 = 0
    ∧ lockedOut.txnOwn host7 = false ∧ lockedOut.reaches host7 R.SEC_OPEN_CTRL [] = true
    ∧ lockedOut.sec.locked.lookup (Iface.code host7.iface) = some 0
    ∧ (opening 0 [(7, session1 2 0)]).sec.ses.lookup 7 = some (session1 2 0)
    ∧ (later (opening 1 [(7, session1 0 0)]) 2999000000).sec.ses.lookup 7 = some (session1 0 0)
    ∧ (later (opening 1 [(7, session1 0 0)]) 2999000000).secState 7 = 1
    ∧ (later (opening 1 [(7, session1 0 0)]) 2999000000).elapsed 0 3000000000 = true
    ∧ (later (opening 1 [(7, session1 0 0)]) 2999000000).txnOwn host7 = false
    ∧ (later (opening 1 [(7, session1 0 0)]) 2999000000).reaches host7 R.SEC_OPEN_CTRL [] = true
    ∧ (later (opening 1 [(7, session1 4 0)]) 3000000000).sec.ses.lookup 7 = some (session1 4 0) ∧ (session1 4 0).step ≠ 2
    ∧ (later (opening 1 [(7, session1 0 0)]) 3000000000).time.up3 ≤ (session1 0 0).drawn3 + 3000000000
    ∧ (later (opening 1 [(7, session1 0 0)]) 3000000000).hostKeys 1 ≠ []
    ∧ (later (opening 1 [(7, session1 0 0)]) 3000000000).secState 7 = 1
    ∧ (later (opening 1 [(7, session1 0 0)]) 3000000000).reaches host7 R.SEC_OPEN_CTRL [] = true := by decide +kernel

def checking (x : Session) : State := opening 1 [(7, x)]
def proved : Session := { session1 4 0 with role := 3, unlock := true, openKey := [1, 2, 3] }

theorem test_witness_SessionOutcome :
    (checking proved).sec.ses.lookup 7 = some proved ∧ proved.step = 4 ∧ proved.role < 4 ∧ proved.openKey ≠ []
    ∧ (checking { proved with openKey := [] }).sec.ses.lookup 7 = some { proved with openKey := [] }
    ∧ live.admits host R.SEC_OPEN_CTRL [] = true
    ∧ live.sessionOf host = some { iface := .pcie, role := 3, unlock := false, openKey := [1] } ∧ host.slot = 1
    ∧ (later lockedOut 29999000000).sec.locked.lookup (Iface.code .pcie) = some 0
    ∧ (later lockedOut 29999000000).elapsed 0 30000000000 = true := by decide +kernel

/-! The wrap of RFC 3394, section 4.6, unwraps in steps of four: its registers as one number before and after. -/

def wrapKey : List Byte := (List.range 32).map (BitVec.ofNat 8)
def wrapped0 : Nat := 0x28C9F404C4B810F4CBCCB35CFB87F8263F5786E2D80ED326CBC7F0E71A99F43BFB988B9B7A02DD21

def wrapRegs (n : Nat) : List Nat × List (List Nat) :=
  let b := (beBytes 40 n).map (·.toNat)
  (b.take 8, (List.range 4).map fun i => (b.drop (8 + 8 * i)).take 8)

/-- Four steps of the unwrap, the last of them numbered `t + 1`. -/
def fourSteps (t n : Nat) : List Nat × List (List Nat) :=
  unwrapUpper (wrapKey.map (·.toNat)) t 4 (wrapRegs n).1 (wrapRegs n).2

theorem unwrap_20 : fourSteps 20 wrapped0
    = wrapRegs 0xd058823360f88a231bb8c765a84195e7f7edad518c960d361cfbf6b4c24cb98207dfe775b9687e73 := by decide +kernel
theorem unwrap_16 : fourSteps 16 0xd058823360f88a231bb8c765a84195e7f7edad518c960d361cfbf6b4c24cb98207dfe775b9687e73
    = wrapRegs 0x5075496800978b5a4745856af333f01fbca418bbf7dce60bc272e9466aae98f940f68c91db49702c := by decide +kernel
theorem unwrap_12 : fourSteps 12 0x5075496800978b5a4745856af333f01fbca418bbf7dce60bc272e9466aae98f940f68c91db49702c
    = wrapRegs 0xf9ed8a1429515669d6ae29ece7192d43fbec169fa5c0f6baf56701daf03882163cf149e90e8c04d9 := by decide +kernel
theorem unwrap_8 : fourSteps 8 0xf9ed8a1429515669d6ae29ece7192d43fbec169fa5c0f6baf56701daf03882163cf149e90e8c04d9
    = wrapRegs 0xc58b9d3ac6d5b946e7d1194d853e53f8efd48ba304945576c365b66943e2d76073e3b6cbe5d05d74 := by decide +kernel
theorem unwrap_4 : fourSteps 4 0xc58b9d3ac6d5b946e7d1194d853e53f8efd48ba304945576c365b66943e2d76073e3b6cbe5d05d74
    = wrapRegs 0x564408fdd0dd2ea0f661bd9f31fbfa31f60e0cdb7f429fe86ca405593a3b5154e5923cb9fdb56fbc := by decide +kernel
theorem unwrap_0 : fourSteps 0 0x564408fdd0dd2ea0f661bd9f31fbfa31f60e0cdb7f429fe86ca405593a3b5154e5923cb9fdb56fbc
    = wrapRegs 0xa6a6a6a6a6a6a6a600112233445566778899aabbccddeeff000102030405060708090a0b0c0d0e0f := by decide +kernel

theorem test_unwrap_rfc3394 : keyUnwrap wrapKey (beBytes 40 wrapped0)
    = some (beBytes 32 0x00112233445566778899aabbccddeeff000102030405060708090a0b0c0d0e0f) := by
  have h : unwrapSteps (wrapKey.map (·.toNat)) (0 + 4 + 4 + 4 + 4 + 4 + 4) (wrapRegs wrapped0).1 (wrapRegs wrapped0).2
      = wrapRegs 0xa6a6a6a6a6a6a6a600112233445566778899aabbccddeeff000102030405060708090a0b0c0d0e0f := by
    simp only [unwrapSteps_add]
    have e20 := unwrap_20
    have e16 := unwrap_16
    have e12 := unwrap_12
    have e8 := unwrap_8
    have e4 := unwrap_4
    have e0 := unwrap_0
    simp only [fourSteps] at e20 e16 e12 e8 e4 e0
    simp only [Nat.zero_add, Nat.reduceAdd, e20, e16, e12, e8, e4, e0, unwrapSteps]
  have hr : (List.range 4).map (fun i => (((beBytes 40 wrapped0).map (·.toNat)).drop (8 + 8 * i)).take 8) = (wrapRegs wrapped0).2 := rfl
  have ha : ((beBytes 40 wrapped0).map (·.toNat)).take 8 = (wrapRegs wrapped0).1 := rfl
  unfold keyUnwrap
  simp only [hr, ha]
  rw [show unwrapSteps (wrapKey.map (·.toNat)) 24 (wrapRegs wrapped0).1 (wrapRegs wrapped0).2 = _ from h]
  decide +kernel

/-- The host's session opened with the key of that wrap, which stands in the registers. -/
def keyed : State :=
  let s := live.setRegBytes R.SEC_KLOAD_Wi 10 (fun k => [k]) (beBytes 40 wrapped0)
  { s with sec := { s.sec with ses := [(1, { iface := .pcie, role := 3, unlock := false, openKey := wrapKey })] } }

theorem test_witness_KeysAndLifecycle :
    keyed.txnOwn host = false ∧ keyed.admits host R.SEC_KLOAD_CTRL [] = true ∧ 0x201 < 2 ^ 30 ∧ 0x201 / 2 ^ 8 % 4 = 2 ∧ 2 < keyed.roleOf host
    ∧ keyed.sessionOf host = some { iface := .pcie, role := 3, unlock := false, openKey := wrapKey } ∧ wrapKey ≠ []
    ∧ 0x300 / 2 ^ 8 % 4 = 3
    ∧ (live.wr F.SEC_LC_CONFIRM_V 0x4C430007).admits host R.SEC_LC_CTRL [] = true
    ∧ (live.wr F.SEC_LC_CONFIRM_V 0x4C430007).rd F.SEC_LC_CONFIRM_V = 0x4C430000 + 7 ∧ live.lcPermits 7 = true ∧ live.lcPermits 3 = false
    ∧ live.admits host R.SEC_PROV_REVOKE [] = true ∧ live.lifecycle = 3
    ∧ ({ live with sec := { live.sec with lc := 1, fuses := 1 } } : State).admits host R.SEC_PROV_REVOKE [] = true
    ∧ ({ live with sec := { live.sec with lc := 1, fuses := 1 } } : State).lifecycle = 1 := by decide +kernel

theorem test_witness_KeysAndLifecycle_key : keyed.unwrapped wrapKey
    = some (beBytes 32 0x00112233445566778899aabbccddeeff000102030405060708090a0b0c0d0e0f) := by
  have h : keyed.regBytes R.SEC_KLOAD_Wi 10 (fun k => [k]) = beBytes 40 wrapped0 := by decide +kernel
  unfold State.unwrapped
  rw [h, test_unwrap_rfc3394]

/-- A transaction of the host in its slot, in a state. -/
def txnState1 (state doom : Nat) (commits : List Commit) : State :=
  let s := (live.wr F.TXN_STAT_STATE state [1]).wr F.TXN_SCOPEk_LEN_LEN 4 [0, 1]
  { s.wr F.TXN_SCOPEk_BASE_ADDR 0x400 [0, 1] with
    part := .ovx1041, txn := [(1, { access := host, doom := doom, last3 := 0 })], commits := commits }

def scopedTxn : State := { txnState1 0 0 [] with txn := [] }

/-- A commit of the slot without a write, and one with a codec that does not exist. -/
def commitEmpty : Commit := { slot := some 1, access := host, writes := [] }
def commitBad : Commit := { commitEmpty with writes := [(R.RXn_CFG.addr [0], 0x8C000000)] }

theorem test_witness_Transactions :
    scopedTxn.admits host R.TXN_CTRL [] = true ∧ scopedTxn.beginCode 1 = 0 ∧ live.admits host R.TXN_CTRL [] = true ∧ live.beginCode 1 = 4
    ∧ (txnState1 1 0 []).reaches host R.TXN_CTRL [] = true ∧ (txnState1 1 0 []).allows host R.TXN_CTRL [] = true
    ∧ (txnState1 1 0 []).txnOwn host = true ∧ (txnState1 1 0 []).txnState 1 = 1 ∧ (txnState1 1 0 []).on F.TXN_CTRL_PERSIST [1] = false
    ∧ (txnState1 2 15 []).reaches host R.TXN_CTRL [] = true ∧ (txnState1 2 15 []).allows host R.TXN_CTRL [] = true
    ∧ (txnState1 2 15 []).txnOwn host = true ∧ (txnState1 2 15 []).txnState 1 = 2 ∧ ((txnState1 2 15 []).txnSlot 1).doom = 15
    ∧ (txnState1 3 0 [commitEmpty]).commits.find? (fun c => c.block.isNone) = some commitEmpty
    ∧ (txnState1 3 0 [commitBad]).commits.find? (fun c => c.block.isNone) = some commitBad
    ∧ ((txnState1 3 0 [commitBad]).judgeCommit commitBad).1 = 7
    ∧ (later (txnState1 2 0 []) 14999000000).txnState 1 = 2
    ∧ (later (txnState1 2 0 []) 14999000000).elapsed 0 ((later (txnState1 2 0 []) 14999000000).rd F.TXN_CFG_TIMEOUT * 300000000) = true := by
  decide +kernel

/-- A validation that passes, rule by rule. -/
def validating : State := txnState1 3 0 [commitEmpty]

/-- It changes nothing at its block. -/
def steps1 : List PendStep := [{ block := 102, before := validating, after := validating, addrs := [] }]

theorem validating_streams : Broken.clean (State.streamRules validating validating steps1 102) = true := by decide +kernel
theorem validating_queues : Broken.clean validating.queueRules = true := by decide +kernel
theorem validating_lines : Broken.clean (State.lineRules validating validating false) = true := by decide +kernel
theorem validating_inputs : Broken.clean validating.inputRules = true := by decide +kernel
theorem validating_outputs : Broken.clean validating.outputRules = true := by decide +kernel
theorem validating_renderer : Broken.clean (State.rendererRules validating validating false) = true := by decide +kernel
theorem validating_cores : Broken.clean (validating.coreRules false) = true := by decide +kernel
theorem validating_rest : Broken.clean (validating.xpRules validating.xpUsed) = true
    ∧ Broken.clean (validating.cnvRules validating.stage) = true ∧ Broken.clean (validating.ringRules false) = true
    ∧ Broken.clean validating.pairRules = true := by decide +kernel

theorem test_witness_Transactions_passes : validating.judgeCommit commitEmpty = (0, 0) := by
  refine State.judgeCommit_passes (pend := []) (s0 := validating) (s1 := validating) (steps := []) (by decide +kernel) rfl rfl
    (by decide +kernel) rfl rfl ?_ (by decide +kernel)
  obtain ⟨h1, h2, h3, h4⟩ := validating_rest
  have hb : validating.time.block + 2 = 102 := by decide +kernel
  have hs : ([] ++ [{ block := validating.time.block + 2, before := validating, after := validating, addrs := commitEmpty.writes.map (·.1) }] :
      List PendStep) = steps1 := by rw [hb]; rfl
  rw [hs, hb]
  simp only [State.configRules, Broken.clean_append, validating_streams, validating_queues, validating_lines, validating_inputs,
    validating_outputs, validating_renderer, validating_cores, h1, h2, h3, h4, Bool.and_self]

def flushing (again : Bool) : State := { live with log := { live.log with flush := some 5, again := again } }

theorem test_witness_AuditLog :
    (live.wr F.LOG_STAT_UNFLUSHED 1024).autoFlush = true ∧ live.log.flush = none ∧ live.admits host R.LOG_CTRL [] = true
    ∧ (flushing false).admits host R.LOG_CTRL [] = true ∧ (flushing false).log.flush = some 5 ∧ (flushing false).log.again = false := by
  decide +kernel

/-! ## Hosts -/

theorem test_witness_HostReads :
    live.reaches host7 R.CLK_BLOCK_LO [] = true ∧ live.reaches host7 R.CLK_EPOCH_NS [] = true ∧ live.reaches host7 R.PTP_TIME_NS [1] = true
    ∧ live.reaches host7 R.NP_CNTi_LO [1, 39] = true ∧ (findReg (R.NP_CNTi_LO.addr [1, 39]) 7).map (·.2) = some [1, 39]
    ∧ live.reaches { iface := .spi, slot := 7 } R.CLK_BLOCK_LO [] = true ∧ R.CLK_BLOCK_LO.addr [] % 4 = 0 ∧ R.CLK_BLOCK_LO.addr [] < 2 ^ 32 := by
  decide +kernel

/-- A register is found at its own address, its entry has property `p`, and a write of the host goes through. -/
def writable (r : Reg) (ix : List Nat) (p : RegEntry → Bool) : Bool :=
  live.admits host r ix && !live.txnOwn host && live.unblocked r ix
    && match findReg (r.addr ix) host.slot with | some (e, i) => i == ix && e.reg == r && p e | none => false

theorem test_witness_HostWrites :
    ([R.SYS_WAKE, R.SYS_THERM, R.TXN_CFG, R.LOG_CFG, R.FAB_HOSTBASE_LO, R.FAB_HOSTBASE_HI, R.IRQ_PIN_EN, R.IRQ_MSI_EN,
      R.OSP_TIMERS] ++ tstControls).all (fun r => writable r [] fun _ => true) = true
    ∧ writable R.INPn_GAIN [2047] (fun e => e.safe && !e.fields.isEmpty) = true ∧ live.journalUsed < 4096
    ∧ live.reaches host7 R.TXN_CFG [] = true ∧ live.alone host7 = true
    ∧ (findReg (R.TXN_CFG.addr []) 7).map (fun e => e.2 == [] && e.1.reg == R.TXN_CFG
      && (live.touch host7 (R.TXN_CFG.addr [])).denies host7 e.1
        (changedFields e.1 ((live.touch host7 (R.TXN_CFG.addr [])).readBack host7 (R.TXN_CFG.addr []) e.1 []) 10)) = some true := by
  decide +kernel

/-- Engine 7 copies 4 words from the start of DRAM to the bytes that follow them. -/
def dma7 : DmaJob := { access := host, src := dramBase, dst := dramBase + 16, words := 4 }
def copying : State := { live.wr F.FAB_DMAd_STAT_BUSY 1 [7] with fab := { live.fab with dma := [(7, dma7)] } }

theorem test_witness_HostMasters :
    live.pwr.off = false ∧ live.sec.ses.lookup 1 = some { iface := .pcie, role := 3, unlock := false, openKey := [1] }
    ∧ (live.drain 27).fab.drains.contains 27 = true ∧ (live.drain 27).fab.waiting = [] ∧ (live.drain 27).fab.cut = []
    ∧ live.admits host R.FAB_DMAd_CTRL [7] = true ∧ live.on F.FAB_DMAd_STAT_BUSY [7] = false
    ∧ copying.admits host R.FAB_DMAd_CTRL [7] = true ∧ copying.on F.FAB_DMAd_STAT_BUSY [7] = true ∧ copying.fab.dma.lookup 7 = some dma7
    ∧ copying.fab.drains.contains 11 = false ∧ copying.awake = true ∧ 0 + 4 * dma7.words ≤ 16 ∧ 16 + 4 * dma7.words ≤ copying.dramBytes
    ∧ dramBase + copying.dramBytes ≤ hostBase := by decide +kernel

def controls : State := (live.wr F.NP_HQ_VLANq_TX_EN 1 [1, 3]).wr F.PTP_CTRL_MODE 1 [1]

theorem test_witness_HostUnitControls :
    controls.admits host R.PTP_CTRL [1] = true ∧ controls.txnOwn host = false ∧ controls.unblocked R.PTP_CTRL [1] = true
    ∧ 2 % 4 ≠ controls.rd F.PTP_CTRL_MODE [1] ∧ 0 % 4 ≠ controls.rd F.PTP_CTRL_MODE [1]
    ∧ controls.admits host R.PTP_REACQ [1] = true ∧ controls.admits host R.PTP_TXTS_POP [1] = true
    ∧ controls.admits host R.NP_HRr_TAIL [1, 7] = true ∧ controls.unblocked R.NP_HRr_TAIL [1, 7] = true
    ∧ controls.admits host R.NP_HQ_VLANq [1, 3] = true ∧ controls.unblocked R.NP_HQ_VLANq [1, 3] = true
    ∧ controls.on F.NP_HQ_VLANq_TX_EN [1, 3] = true ∧ controls.admits host R.IRQ_EOI [] = true := by decide +kernel

/-- The window of core 31 at an offset is there for the host. -/
def thereAt (s : State) (off mem inMem : Nat) : Bool :=
  !s.pwr.off && !s.fab.drains.contains (Access.master host) && s.answers (coreWindow 31 + off)
    && s.windowThere (.core 31 mem inMem) 4 && s.roleOf host != 0 && s.alone host

theorem test_witness_HostCores :
    live.admits host R.LDCc_DOORBELL [31] = true ∧ thereAt live (4 * 16383) 0 (4 * 16383) = true ∧ live.luvState 31 = 0
    ∧ Tab.get 0 (live.luv 31).prog 16383 < 2 ^ 32
    ∧ (live.wr F.LDCc_STAT_STATE 1 [31]).luvState 31 ≠ 0 ∧ thereAt (live.wr F.LDCc_STAT_STATE 1 [31]) (4 * 16383) 0 (4 * 16383) = true
    ∧ thereAt live 0x20000 1 0 = true ∧ thereAt live 0x3FFFC 1 0x1FFFC = true ∧ thereAt live 0x40000 2 0 = true
    ∧ thereAt live 0x5FFFC 2 0x1FFFC = true ∧ (live.luv 31).memWord 1 0x7FFF < 2 ^ 32 ∧ (live.luv 31).memWord 2 0x7FFF < 2 ^ 32 := by
  decide +kernel

end Sys2Proof.Tests
end

/-!
PROOF. A core's fabric access that is answered with a bus error (R279): the record of a bus error (R396) leaves the
registers of the cores and every memory alone, so both kinds of access end in one shape of state, `State.lsqFailed`.
-/

namespace Sys2Proof.Machine

/-! ## Where the registers lie -/

theorem Reg.key_core {r : Reg} (h : r.dims = [(32, 524288)]) (c : Nat) : r.key [c] = r.base + c * 524288 := by
  simp [Reg.key, h]

/-- The registers of a core up to its count of bus errors lie below those of the pair. -/
theorem Reg.key_core_lt {r : Reg} {c : Nat} (hc : c < 32) (hd : r.dims = [(32, 524288)])
    (hb : r.base ≤ R.LDCc_CNT_FABERR.base) : r.key [c] < R.RED_STAT.base := by
  rw [Reg.key_core hd]
  simp only [R.LDCc_CNT_FABERR, R.RED_STAT] at *
  omega

/-- The registers of the pair that the end of a command may write lie at RED_STAT or above. -/
theorem notMem_judged_of_lt {k : Nat} (h : k < R.RED_STAT.base) : k ∉ judged := by
  simp only [judged, Reg.key, R.RED_STAT, R.RED_CAUSE, R.RED_LASTCAUSE, R.RED_EVT] at *
  simp; omega

/-- The registers that the record of a bus error writes (R396). -/
def busErrorRegs : List Nat :=
  [R.FAB_BERR_INFO.key [], R.FAB_BERR_ADDR_LO.key [], R.FAB_BERR_ADDR_HI.key [], R.FAB_BERR_TIME.key [],
   R.FAB_CNT_BERR.key [], R.FAB_EVT.key []]

theorem notMem_busErrorRegs_of_lt {k : Nat} (h : k < R.RED_STAT.base) : k ∉ busErrorRegs := by
  simp only [busErrorRegs, Reg.key, R.RED_STAT, R.FAB_EVT, R.FAB_BERR_INFO, R.FAB_BERR_ADDR_LO, R.FAB_BERR_ADDR_HI, R.FAB_BERR_TIME,
    R.FAB_CNT_BERR] at *
  simp; omega

/-! ## The record of a bus error -/

theorem State.busError_word (s : State) (cause master : Nat) (write : Bool) (slot addr : Nat) (r : Reg) (ix : List Nat)
    (h : r.key ix ∉ busErrorRegs) : (s.busError cause master write slot addr).word r ix = s.word r ix := by
  simp only [busErrorRegs, List.mem_cons, List.not_mem_nil, or_false, not_or] at h
  obtain ⟨hinfo, hlo, hhi, htime, hcnt, hevt⟩ := h
  unfold State.busError State.raise State.count
  simp only
  rw [State.word_wr_other _ _ _ _ _ _ hevt, State.word_wr_other _ _ _ _ _ _ hcnt, State.word_wr_other _ _ _ _ _ _ htime,
    State.word_wr_other _ _ _ _ _ _ hhi, State.word_wr_other _ _ _ _ _ _ hlo]
  iterate 4 rw [State.word_wr_other _ _ _ _ _ _ hinfo]

theorem State.busError_rd (s : State) (cause master : Nat) (write : Bool) (slot addr : Nat) (f : Field) (ix : List Nat)
    (h : f.reg.key ix ∉ busErrorRegs) : (s.busError cause master write slot addr).rd f ix = s.rd f ix := by
  simp only [State.rd, State.busError_word s _ _ _ _ _ _ _ h]

/-! ## Replacing a core -/

@[simp] theorem State.setLuv_dram (s : State) (c : Nat) (x : LuvCore) : (s.setLuv c x).dram = s.dram := rfl
@[simp] theorem State.setLuv_flash (s : State) (c : Nat) (x : LuvCore) : (s.setLuv c x).flash = s.flash := rfl
@[simp] theorem State.setLuv_cells (s : State) (c : Nat) (x : LuvCore) : (s.setLuv c x).cells = s.cells := rfl

theorem State.setLuv_wr (s : State) (c : Nat) (x : LuvCore) (f : Field) (v : Nat) (ix : List Nat) :
    (s.setLuv c x).wr f v ix = (s.wr f v ix).setLuv c x := rfl

theorem State.setLuv_raise (s : State) (c : Nat) (x : LuvCore) (f : Field) (ix : List Nat) :
    (s.setLuv c x).raise f ix = (s.raise f ix).setLuv c x := rfl

theorem State.setLuv_count (s : State) (c : Nat) (x : LuvCore) (f : Field) (ix : List Nat) (n : Nat) :
    (s.setLuv c x).count f ix n = (s.count f ix n).setLuv c x := rfl

theorem State.setLuv_stamp (s : State) (c : Nat) (x : LuvCore) : (s.setLuv c x).stamp = s.stamp := rfl

theorem State.setLuv_busError (s : State) (c : Nat) (x : LuvCore) (cause master : Nat) (write : Bool) (slot addr : Nat) :
    (s.setLuv c x).busError cause master write slot addr = (s.busError cause master write slot addr).setLuv c x := by
  unfold State.busError
  simp only
  iterate 6 rw [State.setLuv_wr]
  rw [State.setLuv_stamp, State.setLuv_wr, State.setLuv_count, State.setLuv_raise]

theorem State.setLuv_lsqTarget (s : State) (c : Nat) (x : LuvCore) (addr : Nat) :
    (s.setLuv c x).lsqTarget addr = s.lsqTarget addr := rfl

/-! ## The answer to a core -/

section
variable (s : State) (c addr : Nat) (write : Bool) (cause : BusCause)

/-- What no register write can alter is left alone by the answer. -/
theorem State.lsqError_keeps {α : Type} (g : State → α) (hw : ∀ (u : State) f v ix, g (u.wr f v ix) = g u) :
    g (s.lsqError c addr write cause) = g s := by
  simp only [State.lsqError, State.busError, State.count, State.raise, hw]

@[simp] theorem State.lsqError_dram : (s.lsqError c addr write cause).dram = s.dram :=
  State.lsqError_keeps s c addr write cause State.dram fun _ _ _ _ => rfl
@[simp] theorem State.lsqError_flash : (s.lsqError c addr write cause).flash = s.flash :=
  State.lsqError_keeps s c addr write cause State.flash fun _ _ _ _ => rfl
@[simp] theorem State.lsqError_cells : (s.lsqError c addr write cause).cells = s.cells :=
  State.lsqError_keeps s c addr write cause State.cells fun _ _ _ _ => rfl
@[simp] theorem State.lsqError_luv (d : Nat) : (s.lsqError c addr write cause).luv d = s.luv d :=
  State.lsqError_keeps s c addr write cause (fun u => u.luv d) fun _ _ _ _ => rfl

/-- The answer does not look at the core itself. -/
theorem State.setLuv_lsqError (x : LuvCore) :
    (s.setLuv c x).lsqError c addr write cause = (s.lsqError c addr write cause).setLuv c x := by
  rw [State.lsqError, State.setLuv_busError, State.setLuv_raise, State.setLuv_count, State.lsqError]

theorem State.lsqError_on_faberr : (s.lsqError c addr write cause).on F.LDCc_EVT_FABERR [c] = true := by
  have hne : F.LDCc_EVT_FABERR.reg.key [c] ≠ F.LDCc_CNT_FABERR_V.reg.key [c] := by
    rw [Reg.key_core rfl, Reg.key_core rfl]
    simp [F.LDCc_EVT_FABERR, F.LDCc_CNT_FABERR_V, R.LDCc_EVT, R.LDCc_CNT_FABERR]
  rw [State.on, State.lsqError, State.count, State.rd_wr_other _ _ _ _ _ _ hne]
  exact State.on_raise _ _ _ rfl (by decide)

variable {c}

theorem State.lsqError_rd_cnt (hc : c < 32) : (s.lsqError c addr write cause).rd F.LDCc_CNT_FABERR_V [c]
    = (s.rd F.LDCc_CNT_FABERR_V [c] + 1) % 2 ^ 32 := by
  have hkey : F.LDCc_CNT_FABERR_V.reg.key [c] = 42401924 + c * 524288 := Reg.key_core rfl c
  have hevt : F.LDCc_EVT_FABERR.reg.key [c] = 42401800 + c * 524288 := Reg.key_core rfl c
  have hfar : F.LDCc_CNT_FABERR_V.reg.key [c] ∉ busErrorRegs :=
    notMem_busErrorRegs_of_lt (Reg.key_core_lt hc rfl (by decide))
  rw [State.lsqError, State.rd_count _ _ _ _ rfl, State.raise, State.rd_wr_other _ _ _ _ _ _ (by omega),
    State.busError_rd _ _ _ _ _ _ _ _ hfar]
  rfl

/-- An answer with a bus error neither halts nor stops the core (R279). -/
theorem State.lsqError_luvState (hc : c < 32) : (s.lsqError c addr write cause).luvState c = s.luvState c := by
  have hkey : F.LDCc_STAT_STATE.reg.key [c] = 42401796 + c * 524288 := Reg.key_core rfl c
  have hevt : F.LDCc_EVT_FABERR.reg.key [c] = 42401800 + c * 524288 := Reg.key_core rfl c
  have hcnt : F.LDCc_CNT_FABERR_V.reg.key [c] = 42401924 + c * 524288 := Reg.key_core rfl c
  have hfar : F.LDCc_STAT_STATE.reg.key [c] ∉ busErrorRegs :=
    notMem_busErrorRegs_of_lt (Reg.key_core_lt hc rfl (by decide))
  rw [State.luvState, State.lsqError, State.count, State.rd_wr_other _ _ _ _ _ _ (by omega), State.raise,
    State.rd_wr_other _ _ _ _ _ _ (by omega), State.busError_rd _ _ _ _ _ _ _ _ hfar]
  rfl

end

/-! ## The end of the access -/

/-- The state after an access of core `c` that a bus error answered, the core left as `x`. -/
def State.lsqFailed (s : State) (c addr : Nat) (write : Bool) (cause : BusCause) (x : LuvCore) : State :=
  (s.lsqError c addr write cause).setLuv c x

section
variable (s : State) (c addr : Nat) (write : Bool) (cause : BusCause) (x : LuvCore)

theorem State.lsqFailed_luv : (s.lsqFailed c addr write cause x).ended.luv c = x := by simp [State.lsqFailed]

theorem State.lsqFailed_sameMemory : s.sameMemory (s.lsqFailed c addr write cause x).ended := by
  intro a
  rw [State.ended_dram, State.ended_flash, State.ended_cells, State.lsqFailed, State.setLuv_dram, State.setLuv_flash,
    State.setLuv_cells, State.lsqError_dram, State.lsqError_flash, State.lsqError_cells]
  exact ⟨rfl, rfl, rfl⟩

/-- At the end of the command a field of the core's registers reads what the answer left. -/
theorem State.lsqFailed_rd (f : Field) {c : Nat} (hc : c < 32) (hd : f.reg.dims = [(32, 524288)])
    (hb : f.reg.base ≤ R.LDCc_CNT_FABERR.base) :
    (s.lsqFailed c addr write cause x).ended.rd f [c] = (s.lsqError c addr write cause).rd f [c] := by
  rw [State.ended_rd _ _ _ (notMem_judged_of_lt (Reg.key_core_lt hc hd hb)), State.lsqFailed, State.setLuv_rd]

end

/-! ## Loads and stores that a bus error answers -/

theorem State.luvLoadReturn_fault {s : State} {c : Nat} {e : LsqEntry} {rest : List LsqEntry} {cause : BusCause}
    (hq : (s.luv c).lsq = e :: rest) (hd : s.fab.drains.contains (16 + c) = false)
    (ht : s.lsqTarget e.addr = .fault cause) (hs : e.store = none) :
    s.luvLoadReturn c
      = s.lsqFailed c e.addr false cause (LuvCore.loaded { s.luv c with lsq := rest, stalled := false } e 0) := by
  simp only [State.luvLoadReturn, hq, hs, hd, State.lsqLoad, ht, Option.isSome_none, Bool.or_self, Bool.false_eq_true,
    if_false, State.lsqError_luv, State.lsqFailed]

theorem State.luvStoreDone_fault {s : State} {c : Nat} {e : LsqEntry} {rest : List LsqEntry} {cause : BusCause}
    (hq : (s.luv c).lsq = e :: rest) (hd : s.fab.drains.contains (16 + c) = false)
    (ht : s.lsqTarget e.addr = .fault cause) (hs : e.store.isSome = true) :
    s.luvStoreDone c = s.lsqFailed c e.addr true cause { s.luv c with lsq := rest, stalled := false } := by
  obtain ⟨a, st, d, sh⟩ := e
  obtain ⟨v, rfl⟩ := Option.isSome_iff_exists.1 hs
  simp only [State.luvStoreDone, hq, hd, Bool.false_eq_true, if_false, State.lsqStore, State.setLuv_lsqTarget, ht, State.setLuv_lsqError,
    State.lsqFailed]

/-! ## The destination of a load -/

theorem LuvCore.loaded_get (x : LuvCore) (e : LsqEntry) (v : Nat) :
    (if e.shadow then (x.loaded e v).shadow else (x.loaded e v).main).v.get e.dest = BitVec.ofNat 24 v := by
  unfold LuvCore.loaded
  cases e.shadow <;> simp

/-- A load changes nothing of a core but the register set that issued it. -/
theorem LuvCore.loaded_frame (x : LuvCore) (e : LsqEntry) (v : Nat) :
    x.loaded e v = { x with main := (x.loaded e v).main, shadow := (x.loaded e v).shadow } := by
  unfold LuvCore.loaded
  cases e.shadow <;> rfl

@[simp] theorem LuvCore.loaded_lsq (x : LuvCore) (e : LsqEntry) (v : Nat) : (x.loaded e v).lsq = x.lsq := by
  rw [LuvCore.loaded_frame]
@[simp] theorem LuvCore.loaded_smem (x : LuvCore) (e : LsqEntry) (v : Nat) : (x.loaded e v).smem = x.smem := by
  rw [LuvCore.loaded_frame]
@[simp] theorem LuvCore.loaded_kmem (x : LuvCore) (e : LsqEntry) (v : Nat) : (x.loaded e v).kmem = x.kmem := by
  rw [LuvCore.loaded_frame]

/-! ## The rule -/

/-- Settles O10: a load and a store that a bus error answers both end in `State.lsqFailed`, which records the error, keeps
the core's state and stores nothing; the load's register takes 0. -/
theorem ruleFabricError : Obligations.RuleFabricError := by
  unfold Obligations.RuleFabricError
  intro s c e rest cause hc hq hd ht failed
  have hfailed (write : Bool) (x : LuvCore) (hl : x.lsq = rest) (hs : x.smem = (s.luv c).smem)
      (hk : x.kmem = (s.luv c).kmem) : failed (s.lsqFailed c e.addr write cause x).ended := by
    have hrd (f : Field) := State.lsqFailed_rd s e.addr write cause x f hc
    refine ⟨?_, ?_, ?_, ?_, State.lsqFailed_sameMemory s c e.addr write cause x, ?_, ?_⟩
    · rw [State.lsqFailed_luv, hl]
    · rw [State.on, hrd _ rfl (by decide)]
      exact State.lsqError_on_faberr s c e.addr write cause
    · rw [hrd _ rfl (by decide), State.lsqError_rd_cnt s e.addr write cause hc]
    · rw [State.luvState, hrd _ rfl (by decide)]
      exact State.lsqError_luvState s e.addr write cause hc
    · rw [State.lsqFailed_luv, hs]
    · rw [State.lsqFailed_luv, hk]
  constructor
  · intro hload
    refine completes_of (congrArg State.finish (State.luvLoadReturn_fault hq hd ht hload)) ⟨?_, ?_⟩
    · exact hfailed false _ (by simp) (by simp) (by simp)
    · rw [State.lsqFailed_luv, LuvCore.loaded_get]
      rfl
  · intro hstore
    refine completes_of (congrArg State.finish (State.luvStoreDone_fault hq hd ht hstore)) ⟨?_, ?_, ?_⟩
    · exact hfailed true _ rfl rfl rfl
    · rw [State.lsqFailed_luv]
    · rw [State.lsqFailed_luv]

end Sys2Proof.Machine

/-!
PROOF. The rounding of an accumulator (R302): the model's integer divisions are the exact quotient v × 2^s / 2^23, rounded to
the nearest integer with ties away from zero (RND and STR), or its floor (TRN), saturated to 24 bits.
-/

namespace Sys2Proof.Machine

/-! ## Rounding over the rationals -/

/-- The nearest integer, ties away from zero. -/
def nearest (x : ℚ) : Int := if 0 ≤ x then ⌊x + 1 / 2⌋ else -⌊-x + 1 / 2⌋

/-- Half a unit more, then the floor, as one integer division. -/
theorem floor_div_add_half (a : Int) {b : Nat} (hb : 0 < b) :
    ⌊(a : ℚ) / b + 1 / 2⌋ = (2 * a + b) / (2 * (b : Int)) := by
  have hfrac : (a : ℚ) / b + 1 / 2 = ((2 * a + b : Int) : ℚ) / ((2 * b : Nat) : ℚ) := by
    have : (b : ℚ) ≠ 0 := by positivity
    push_cast
    field_simp
  rw [hfrac, Rat.floor_intCast_div_natCast]
  push_cast
  rfl

theorem roundDiv_eq_nearest (a : Int) {b : Nat} (hb : 0 < b) : roundDiv a b = nearest ((a : ℚ) / b) := by
  have hsign : 0 ≤ (a : ℚ) / b ↔ 0 ≤ a := by
    rw [le_div_iff₀ (by positivity), zero_mul, Int.cast_nonneg_iff]
  unfold roundDiv nearest
  simp only [hsign]
  split
  · rw [floor_div_add_half a hb]
  · rw [← neg_div, ← Int.cast_neg, floor_div_add_half (-a) hb]

/-! ## The shifted accumulator -/

/-- v × 2^s / 2^23, exactly. -/
def exactQuotient (v sh : Int) : ℚ := (v : ℚ) * (2 : ℚ) ^ sh / 2 ^ 23

theorem shifted_den_pos (v sh : Int) : 0 < (shifted v sh).2 := by
  unfold shifted
  split <;> simp

theorem shifted_fraction (v sh : Int) : ((shifted v sh).1 : ℚ) / (shifted v sh).2 = v * (2 : ℚ) ^ sh := by
  unfold shifted
  split
  case isTrue h =>
    lift sh to ℕ using h
    simp
  case isFalse h =>
    obtain ⟨n, rfl⟩ : ∃ n : ℕ, sh = -n := ⟨(-sh).toNat, by omega⟩
    simp [div_eq_mul_inv]

theorem exactQuotient_eq_fraction (v sh : Int) :
    exactQuotient v sh = ((shifted v sh).1 : ℚ) / (((shifted v sh).2 * 8388608 : Nat) : ℚ) := by
  rw [Nat.cast_mul, ← div_div, shifted_fraction, exactQuotient]
  norm_num

theorem rndValue_eq_nearest (v sh : Int) : rndValue v sh = nearest (exactQuotient v sh) := by
  rw [rndValue, roundDiv_eq_nearest _ (Nat.mul_pos (shifted_den_pos v sh) (by decide)), exactQuotient_eq_fraction]

theorem trnValue_eq_floor (v sh : Int) : trnValue v sh = ⌊exactQuotient v sh⌋ := by
  rw [trnValue, exactQuotient_eq_fraction, Rat.floor_intCast_div_natCast]

theorem sat24_eq_max_min (x : Int) : sat24 x = max (-(2 ^ 23)) (min (2 ^ 23 - 1) x) := by
  unfold sat24 clampInt
  split_ifs <;> omega

/-! ## A store into the core's own S memory -/

theorem LuvSet.postMod_fw (r old : LuvSet) (n : AReg) (m : PostMod) : (r.postMod old n m).fw = r.fw := by
  cases m <;> rfl

theorem LuvCore.write_smem (x : LuvCore) {a : Nat} (h : a < 0x8000) (v : Nat) :
    x.write a v = ({ x with smem := Tab.set 0 x.smem a v }, false) := by
  rw [LuvCore.write, if_pos h]

/-- A store below 0x8000 writes the one word of S memory and ignores nothing, so PW stays (R266, R297). -/
theorem State.luvStore_smem (s : State) (c : Nat) (x : LuvCore) (p : AReg) (m : PostMod) (value : Nat)
    (f : LuvSet → LuvSet) (h : (x.set.p.get p).toNat < 0x8000) :
    s.luvStore c x p m value f
      = { x with smem := Tab.set 0 x.smem (x.set.p.get p).toNat value }.withSet (f (x.set.tick.postMod x.set p m)) := by
  have hlocal : (x.set.p.get p).toNat < 0x20000 := by omega
  simp only [State.luvStore, hlocal, if_true, LuvCore.write_smem x h, LuvSet.sticky, Bool.false_eq_true, if_false]

/-- An access below the fabric window never waits for the queue (R277). -/
theorem State.luvMem_issues {s : State} {c : Nat} {i : Instr} {p : AReg} (h : s.issues c i = true)
    (ha : ((s.luvRegs c).p.get p).toNat < 0x20000) (f : State → LuvCore → LuvCore) :
    s.luvMem c i p f = s.setLuv c (f s (s.luv c)).advance := by
  have hlocal : ¬ 0x20000 ≤ ((s.luv c).set.p.get p).toNat := Nat.not_le.2 ha
  rw [State.luvMem, ← State.luvStep_issues h f]
  simp [hlocal]

/-! ## The rule -/

/-- An RND or TRN gives its destination a value and says in V whether that saturated. -/
theorem LuvSet.setV_flagsV_leaves (r : LuvSet) (d : VReg) (x : BitVec 24) (v : Bool) :
    ((r.tick.setV d x).flagsV v).v.get d = x ∧ flagVIs r.fw ((r.tick.setV d x).flagsV v).fw v := by
  refine ⟨by rw [LuvSet.flagsV_v, LuvSet.get_setV], ?_⟩
  have h := LuvSet.flagsV_is (r.tick.setV d x) v
  rwa [LuvSet.setV_fw, LuvSet.tick_fw] at h

/-- A store moves its pointer and says in V whether its value saturated. -/
theorem LuvSet.postMod_flagsV_leaves (r : LuvSet) (p : AReg) (m : PostMod) (v : Bool) :
    flagVIs r.fw ((r.tick.postMod r p m).flagsV v).fw v := by
  have h := LuvSet.flagsV_is (r.tick.postMod r p m) v
  rwa [LuvSet.postMod_fw, LuvSet.tick_fw] at h

/-- Settles O9: both of the model's divisions are the exact quotient rounded (`rndValue_eq_nearest`, `trnValue_eq_floor`),
and its clamp is the saturation; the three instructions leave that value in v or in S memory, and V with it. -/
theorem ruleRounding : Obligations.RuleRounding := by
  unfold Obligations.RuleRounding
  intro s c d j sh p m sh3 r exact near low leaves
  have hlow (x : Int) : sat24 x = low x := sat24_eq_max_min x
  have hnear (k : Int) : r.rounded j k = near (exact k) := rndValue_eq_nearest _ k
  have hfloor (k : Int) : trnValue (r.accView j) k = ⌊exact k⌋ := trnValue_eq_floor _ k
  refine ⟨fun hi => completes_luvSet rfl hi ?_, fun hi => completes_luvSet rfl hi ?_, fun hi ha => ?_⟩
  case refine_1 =>
    rw [State.retired_luvRegs, ← hnear, ← hlow]
    exact LuvSet.setV_flagsV_leaves r d _ _
  case refine_2 =>
    rw [State.retired_luvRegs, ← hfloor, ← hlow]
    exact LuvSet.setV_flagsV_leaves r d _ _
  case refine_3 =>
    have hlocal : (r.p.get p).toNat < 0x20000 := by omega
    refine completes_of (congrArg State.finish (State.luvMem_issues hi hlocal _)) ?_
    rw [State.luvStore_smem s c (s.luv c) p m _ _ ha, State.luvRegs_ended, State.ended_luv, State.luv_setLuv,
      LuvCore.advance_smem, LuvCore.withSet_smem, ← hnear]
    intro x
    rw [← hlow]
    exact ⟨Tab.get_set_same .., LuvSet.postMod_flagsV_leaves r p m _⟩

end Sys2Proof.Machine

/-!
PROOF. Host accesses in STANDBY (R434): an access to a silent window ends at once with UNMAPPED, and a write that ends with a
bus error leaves the state with the record of that error (R396) and at most one answer to the host.
-/

namespace Sys2Proof.Machine

/-! ## The windows that answer in STANDBY -/

/-- The windows of R434: SYS, CLK and SEC; LOG; IRQ; the entries of the audit log; the MAC registers of either port; BOOT. -/
def standbyOpen (addr : Nat) : Prop :=
  addr < 0x3000 ∨ 0x4000 ≤ addr ∧ addr < 0x5000 ∨ 0x6000 ≤ addr ∧ addr < 0x7000 ∨ 0x20000 ≤ addr ∧ addr < 0x30000
    ∨ 0x100000 ≤ addr ∧ addr < 0x120000 ∨ 0x140000 ≤ addr ∧ addr < 0x160000 ∨ 0x38C0000 ≤ addr ∧ addr < 0x3900000

theorem State.answers_standby_iff {s : State} (hb : s.booted = true) (hp : s.rd F.SYS_STAT_PWR = 2) (addr : Nat) :
    s.answers addr = true ↔ standbyOpen addr := by
  simp only [State.answers, hb, hp, within, standbyOpen, Bool.not_true, Bool.false_eq_true, if_false, beq_self_eq_true, if_true,
    Bool.or_eq_true, Bool.and_eq_true, decide_eq_true_eq]
  omega

/-! ## A word at a window that does not answer -/

theorem State.localWord_of_not_answers {s : State} {addr size : Nat} (hs : size = 1 ∨ size = 2 ∨ size = 4)
    (hal : addr % size = 0) (ha : s.answers addr = false) (a : Access) (w : Option Nat) :
    s.localWord a addr size w = (s, .error .unmapped) := by
  rcases hs with rfl | rfl | rfl <;> simp [State.localWord, hal, ha]

theorem accessWords_single {size : Nat} (h : size ≠ 8) (addr : Nat) (w : Option Nat) :
    accessWords addr size w = [(addr, size, w)] := by
  simp [accessWords, h]

/-- A word of this device that meets UNMAPPED leaves the bus error's record and the answer to the host. -/
theorem State.runWords_unmapped {s : State} {a : Access} {addr size : Nat} {w : Option Nat} (hm : addr < 0x4000000)
    (hl : s.localWord a addr size w = (s, .error .unmapped)) (reads : Bool) :
    s.runWords a reads [] [(addr, size, w)]
      = (s.busError 1 (Access.master a) w.isSome a.slot addr).jobEnd
          { access := a, reads := reads, todo := [(addr, size, w)], got := [] } 1 := by
  simp only [State.runWords, State.route_here s addr hm, hl]
  rfl

/-- What neither a register write nor an output can alter is left alone by the end of an access. -/
theorem State.jobEnd_keeps {α : Type} (g : State → α) (he : ∀ (u : State) o, g (u.emit o) = g u) (s : State) (j : HostJob)
    (cause : Nat) : g (s.jobEnd j cause) = g s := by
  unfold State.jobEnd
  rw [apply_ite g]
  split
  · rfl
  · cases j.access.iface
    case pcie => simp only [apply_ite g, he, ite_self]
    case spi => exact he _ _
    case tunnel => exact he _ _

theorem State.jobEnd_rd (s : State) (j : HostJob) (cause : Nat) (f : Field) (ix : List Nat) :
    (s.jobEnd j cause).rd f ix = s.rd f ix := State.jobEnd_keeps (fun u => u.rd f ix) (fun _ _ => rfl) s j cause

/-! ## What the record of a bus error holds -/

section
variable (s : State) (cause master : Nat) (write : Bool) (slot addr : Nat)

/-- What no register write can alter is left alone by the record. -/
theorem State.busError_keeps {α : Type} (g : State → α) (hw : ∀ (u : State) f v ix, g (u.wr f v ix) = g u) :
    g (s.busError cause master write slot addr) = g s := by
  simp only [State.busError, State.count, State.raise, hw]

theorem State.busError_on_berr : (s.busError cause master write slot addr).on F.FAB_EVT_BERR = true :=
  State.on_raise _ _ _ rfl (by decide)

theorem State.busError_rd_count : (s.busError cause master write slot addr).rd F.FAB_CNT_BERR_V
    = (s.rd F.FAB_CNT_BERR_V + 1) % 2 ^ 32 := by
  have h (u : State) (f : Field) (v : Nat) (hf : F.FAB_CNT_BERR_V.reg.key [] ≠ f.reg.key []) :
      (u.wr f v).rd F.FAB_CNT_BERR_V = u.rd F.FAB_CNT_BERR_V := State.rd_wr_other u _ _ v _ _ hf
  unfold State.busError State.raise
  simp only
  rw [h _ _ _ (by decide), State.rd_count _ _ _ _ rfl]
  iterate 7 rw [h _ _ _ (by decide)]
  rfl

theorem State.busError_rd_cause : (s.busError cause master write slot addr).rd F.FAB_BERR_INFO_CAUSE = cause % 2 ^ 4 := by
  have hother (u : State) (f : Field) (v : Nat) (hf : F.FAB_BERR_INFO_CAUSE.reg.key [] ≠ f.reg.key []) :
      (u.wr f v).rd F.FAB_BERR_INFO_CAUSE = u.rd F.FAB_BERR_INFO_CAUSE := State.rd_wr_other u _ _ v _ _ hf
  have hapart (u : State) (f : Field) (v : Nat) (hf : f.fits = true) (hr : F.FAB_BERR_INFO_CAUSE.reg = f.reg)
      (ha : F.FAB_BERR_INFO_CAUSE.apart f = true) : (u.wr f v).rd F.FAB_BERR_INFO_CAUSE = u.rd F.FAB_BERR_INFO_CAUSE :=
    State.rd_wr_apart u _ _ v _ hf hr ha (by decide)
  unfold State.busError State.raise State.count
  simp only
  iterate 5 rw [hother _ _ _ (by decide)]
  rw [hapart _ F.FAB_BERR_INFO_SLOT _ rfl rfl rfl, hapart _ F.FAB_BERR_INFO_WRITE _ rfl rfl rfl,
    hapart _ F.FAB_BERR_INFO_MASTER _ rfl rfl rfl]
  exact State.rd_wr _ _ _ _ rfl

end

/-! ## A write that meets UNMAPPED -/

theorem State.hostWrite_unmapped {s : State} {a : Access} {addr size v : Nat} (ho : s.pwr.off = false)
    (hd : s.fab.drains.contains (Access.master a) = false) (hs : size ≠ 8) (hm : addr < 0x4000000)
    (hl : s.localWord a addr size (some v) = (s, .error .unmapped)) :
    s.hostWrite a addr size v = (s.busError 1 (Access.master a) true a.slot addr).jobEnd
      { access := a, reads := a.iface != .pcie, todo := [(addr, size, some v)], got := [] } 1 := by
  simp only [State.hostWrite, State.startJob, ho, hd, Bool.false_eq_true, if_false, accessWords_single hs]
  exact State.runWords_unmapped hm hl _

/-- An access that ends with a bus error alters register words and outputs alone. -/
theorem State.jobEnd_busError_keeps {α : Type} (g : State → α) (hw : ∀ (u : State) f v ix, g (u.wr f v ix) = g u)
    (he : ∀ (u : State) o, g (u.emit o) = g u) (s : State) (cause master : Nat) (write : Bool) (slot addr : Nat) (j : HostJob)
    (answer : Nat) : g ((s.busError cause master write slot addr).jobEnd j answer) = g s :=
  (State.jobEnd_keeps g he _ j answer).trans (State.busError_keeps s cause master write slot addr g hw)

/-! ## The rule -/

/-- Settles O8: in STANDBY the windows that answer are those of R434; anywhere else the access ends with UNMAPPED before it
touches the state, and the write that carried it leaves the record of that bus error. -/
theorem ruleStandbyAccess : Obligations.RuleStandbyAccess := by
  unfold Obligations.RuleStandbyAccess
  intro s a addr size w hb hp hs hal hm open'
  have hopen : s.answers addr = true ↔ open' := State.answers_standby_iff hb hp addr
  refine ⟨hopen.2, fun hno => ?_⟩
  have hlocal (w : Option Nat) : s.localWord a addr size w = (s, .error .unmapped) :=
    State.localWord_of_not_answers hs hal (Bool.eq_false_iff.2 fun h => hno (hopen.1 h)) a w
  refine ⟨hlocal w, fun ho hd v => ?_⟩
  have hend := State.hostWrite_unmapped ho hd (by omega) hm (hlocal (some v))
  refine completes_of (congrArg State.finish hend) ⟨?_, ?_, ?_, ?_, ?_⟩
  · rw [State.ended_rd _ _ _ (by decide), State.jobEnd_rd, State.busError_rd_cause]
    rfl
  · rw [State.ended_on _ _ _ (by decide), State.on, State.jobEnd_rd]
    exact State.busError_on_berr s 1 _ true a.slot addr
  · rw [State.ended_rd _ _ _ (by decide), State.jobEnd_rd, State.busError_rd_count]
  · intro b
    rw [State.ended_dram, State.ended_flash, State.ended_cells,
      State.jobEnd_busError_keeps State.dram (fun _ _ _ _ => rfl) (fun _ _ => rfl),
      State.jobEnd_busError_keeps State.flash (fun _ _ _ _ => rfl) (fun _ _ => rfl),
      State.jobEnd_busError_keeps State.cells (fun _ _ _ _ => rfl) (fun _ _ => rfl)]
    exact ⟨rfl, rfl, rfl⟩
  · rw [State.ended_txn, State.jobEnd_busError_keeps State.txn (fun _ _ _ _ => rfl) (fun _ _ => rfl)]

end Sys2Proof.Machine
